-- ==== Sys2Proof/Word.lean ====
section
/-! DEFINITION. The word types of the register port (spec rules R5, R7, R91). -/

namespace Sys2Proof

/-- A 32-bit register value (R5). -/
abbrev Word := BitVec 32

/-- A byte (R7). -/
abbrev Byte := BitVec 8

/-- A register slot number, WADDR[3:0] (R38). -/
abbrev Slot := BitVec 4

/-- A 40-bit transaction key, format T40 (R91). -/
abbrev Key := BitVec 40

end Sys2Proof
end

