-- ==== Sys2Proof/Syntax.lean ====
section
/-! DEFINITION. The operations of the block: one constructor per row of the opcode map (R94). -/

namespace Sys2Proof

/-- One transaction of the register port, by the operation it spells (R94, R97). An operand is the field of WDATA
that R92 gives it; a read carries no WDATA, and FEEDB carries only WDATA[7:0] (R92, R97). -/
inductive Instr where
  /-- NOP, command value 0 (R121). -/
  | nop
  /-- START.GEN, command value 1 (R122). -/
  | startGen
  /-- START.CHK, command value 2 (R123). -/
  | startChk
  /-- FINISH, command value 3 (R126). -/
  | finish
  /-- ABORT, command value 4 (R129). -/
  | abort
  /-- CMD.RSV v, any command value v not in 0..4 (R131). -/
  | cmdRsv (v : Word)
  /-- WR.STATUS x, ignored (R181). -/
  | wrStatus (x : Word)
  /-- FEEDB b, feed one byte (R155). -/
  | feedb (b : Byte)
  /-- FEEDW w, feed four bytes, most significant first (R156). -/
  | feedw (w : Word)
  /-- SETRX v, write CRC_RX (R170). -/
  | setrx (v : Word)
  /-- WR.CRC_OUT x, ignored (R182). -/
  | wrCrcOut (x : Word)
  /-- WR.COUNT x, ignored (R183). -/
  | wrCount (x : Word)
  /-- WR.TAG x, ignored (R184). -/
  | wrTag (x : Word)
  /-- WR.RSV n, x for a reserved slot n in 8..15, ignored (R185). -/
  | wrRsv (n : Slot) (x : Word)
  /-- RD.CMD (R171). -/
  | rdCmd
  /-- RD.STATUS (R172). -/
  | rdStatus
  /-- RD.DIN_B (R173). -/
  | rdDinB
  /-- RD.DIN_W (R175). -/
  | rdDinW
  /-- RD.CRC_RX (R174). -/
  | rdCrcRx
  /-- RD.CRC_OUT (R176). -/
  | rdCrcOut
  /-- RD.COUNT (R177). -/
  | rdCount
  /-- RD.TAG (R178). -/
  | rdTag
  /-- RD.RSV n for a reserved slot n in 8..15 (R179). -/
  | rdRsv (n : Slot)
  deriving DecidableEq, Repr

end Sys2Proof
end

