-- ==== Sys2Proof/WellFormed.lean ====
section
/-! DEFINITION. Which terms of Instr a transaction key can spell (R94, R97). -/

namespace Sys2Proof

/-- Command values 0 to 4 are the five commands; every other value is CMD.RSV (R94). -/
def isReservedCommand (v : Word) : Bool := decide (4 < v)

/-- Slots 8 to 15 are reserved (R38, R97 `slot := 8..15`). -/
def isReservedSlot (n : Slot) : Bool := decide (8 ≤ n)

/-- An instruction is well formed when its operands are those its row of R94 admits. -/
def Instr.wellFormed : Instr → Bool
  | .nop => true
  | .startGen => true
  | .startChk => true
  | .finish => true
  | .abort => true
  | .cmdRsv v => isReservedCommand v
  | .wrStatus _ => true
  | .feedb _ => true
  | .feedw _ => true
  | .setrx _ => true
  | .wrCrcOut _ => true
  | .wrCount _ => true
  | .wrTag _ => true
  | .wrRsv n _ => isReservedSlot n
  | .rdCmd => true
  | .rdStatus => true
  | .rdDinB => true
  | .rdDinW => true
  | .rdCrcRx => true
  | .rdCrcOut => true
  | .rdCount => true
  | .rdTag => true
  | .rdRsv n => isReservedSlot n

/-- Well-formedness as a proposition. -/
abbrev Instr.WellFormed (i : Instr) : Prop := i.wellFormed = true

end Sys2Proof
end

