-- ==== Sys2Proof/Decode.lean ====
section
/-! DEFINITION. The transaction key format T40 (R91), the decoder (R93), the encoder and the opcode map (R94). -/

namespace Sys2Proof

/-- Why a key spells no transaction. -/
inductive DecodeError where
  /-- PAD, K[38:36], is not 000 (R91, R93 step 1, R95, I8). -/
  | padNonZero
  deriving DecidableEq, Repr

/-- WE = K[39]: true for BusWrite (R91). -/
def Key.we (k : Key) : Bool := k.getLsbD 39

/-- PAD = K[38:36] (R91). -/
def Key.pad (k : Key) : BitVec 3 := k.extractLsb' 36 3

/-- WADDR = K[35:32] (R91). -/
def Key.waddr (k : Key) : Slot := k.extractLsb' 32 4

/-- WDATA = K[31:0] (R91). -/
def Key.wdata (k : Key) : Word := k.extractLsb' 0 32

/-- The key {WE, 000, WADDR, WDATA} (R91). -/
def Key.mk (we : Bool) (waddr : Slot) (wdata : Word) : Key :=
  BitVec.ofBool we ++ (0#3 : BitVec 3) ++ waddr ++ wdata

/-- The byte operand of a DIN_B write: WDATA[7:0]; WDATA[31:8] is ignored (R42, R92). -/
def lowByte (w : Word) : Byte := w.extractLsb' 0 8

/-- A CMD write, matched on all 32 bits of WDATA (R93 step 3, R39). -/
def decodeCommand (w : Word) : Instr :=
  if w = 0 then .nop
  else if w = 1 then .startGen
  else if w = 2 then .startChk
  else if w = 3 then .finish
  else if w = 4 then .abort
  else .cmdRsv w

/-- A write of slot n (R93 steps 3 and 4). -/
def decodeWrite (n : Slot) (w : Word) : Instr :=
  if n = 0 then decodeCommand w
  else if n = 1 then .wrStatus w
  else if n = 2 then .feedb (lowByte w)
  else if n = 3 then .feedw w
  else if n = 4 then .setrx w
  else if n = 5 then .wrCrcOut w
  else if n = 6 then .wrCount w
  else if n = 7 then .wrTag w
  else .wrRsv n w

/-- A read of slot n; K[31:0] is ignored (R93 step 2). -/
def decodeRead (n : Slot) : Instr :=
  if n = 0 then .rdCmd
  else if n = 1 then .rdStatus
  else if n = 2 then .rdDinB
  else if n = 3 then .rdDinW
  else if n = 4 then .rdCrcRx
  else if n = 5 then .rdCrcOut
  else if n = 6 then .rdCount
  else if n = 7 then .rdTag
  else .rdRsv n

/-- The decoder, total on every 40-bit key (R93). It does not read the block's state (R96). -/
def decode (k : Key) : Except DecodeError Instr :=
  if k.pad ≠ 0 then .error .padNonZero
  else if k.we then .ok (decodeWrite k.waddr k.wdata)
  else .ok (decodeRead k.waddr)

/-- The canonical key of an instruction: its row's WE, WADDR and WDATA (R94), with every bit that is
no operand of it written 0 (R91 for a read, R97 for FEEDB). -/
def encode : Instr → Key
  | .nop => Key.mk true 0 0
  | .startGen => Key.mk true 0 1
  | .startChk => Key.mk true 0 2
  | .finish => Key.mk true 0 3
  | .abort => Key.mk true 0 4
  | .cmdRsv v => Key.mk true 0 v
  | .wrStatus x => Key.mk true 1 x
  | .feedb b => Key.mk true 2 (b.setWidth 32)
  | .feedw w => Key.mk true 3 w
  | .setrx v => Key.mk true 4 v
  | .wrCrcOut x => Key.mk true 5 x
  | .wrCount x => Key.mk true 6 x
  | .wrTag x => Key.mk true 7 x
  | .wrRsv n x => Key.mk true n x
  | .rdCmd => Key.mk false 0 0
  | .rdStatus => Key.mk false 1 0
  | .rdDinB => Key.mk false 2 0
  | .rdDinW => Key.mk false 3 0
  | .rdCrcRx => Key.mk false 4 0
  | .rdCrcOut => Key.mk false 5 0
  | .rdCount => Key.mk false 6 0
  | .rdTag => Key.mk false 7 0
  | .rdRsv n => Key.mk false n 0

/-- The canonical form of a key: the bits that are no operand of its instruction, WDATA of a read and WDATA[31:8] of a
DIN_B write, become 0 (R91, R97). The WDATA that R95 calls ignored in the writes of read-only and reserved slots is the
value field of those rows (R94) and stays. -/
def Key.canonical (k : Key) : Key :=
  if ¬ k.we then Key.mk false k.waddr 0
  else if k.waddr = 2 then Key.mk true 2 ((lowByte k.wdata).setWidth 32)
  else k

/-- The mnemonic of an instruction, as R94 spells it. -/
def Instr.mnemonic : Instr → String
  | .nop => "NOP"
  | .startGen => "START.GEN"
  | .startChk => "START.CHK"
  | .finish => "FINISH"
  | .abort => "ABORT"
  | .cmdRsv _ => "CMD.RSV"
  | .wrStatus _ => "WR.STATUS"
  | .feedb _ => "FEEDB"
  | .feedw _ => "FEEDW"
  | .setrx _ => "SETRX"
  | .wrCrcOut _ => "WR.CRC_OUT"
  | .wrCount _ => "WR.COUNT"
  | .wrTag _ => "WR.TAG"
  | .wrRsv _ _ => "WR.RSV"
  | .rdCmd => "RD.CMD"
  | .rdStatus => "RD.STATUS"
  | .rdDinB => "RD.DIN_B"
  | .rdDinW => "RD.DIN_W"
  | .rdCrcRx => "RD.CRC_RX"
  | .rdCrcOut => "RD.CRC_OUT"
  | .rdCount => "RD.COUNT"
  | .rdTag => "RD.TAG"
  | .rdRsv _ => "RD.RSV"

/-- One row of the opcode map: a key matches it when (K and mask) = match (R93). -/
structure OpcodeRow where
  mnemonic : String
  pattern : Key
  mask : Key
  deriving DecidableEq, Repr

/-- A key matches a row when (K and mask) = match (R93). -/
def OpcodeRow.matchesKey (r : OpcodeRow) (k : Key) : Bool := k &&& r.mask = r.pattern

/-- The rows of R94 for the CMD slot, the five exact rows (priority 1) before CMD.RSV (priority 2). -/
def commandRows : List OpcodeRow :=
  [⟨"NOP", 0x8000000000, 0xFFFFFFFFFF⟩,
   ⟨"START.GEN", 0x8000000001, 0xFFFFFFFFFF⟩,
   ⟨"START.CHK", 0x8000000002, 0xFFFFFFFFFF⟩,
   ⟨"FINISH", 0x8000000003, 0xFFFFFFFFFF⟩,
   ⟨"ABORT", 0x8000000004, 0xFFFFFFFFFF⟩,
   ⟨"CMD.RSV", 0x8000000000, 0xFF00000000⟩]

/-- The rows of R94 for writes of the other slots. -/
def writeRows : List OpcodeRow :=
  [⟨"WR.STATUS", 0x8100000000, 0xFF00000000⟩,
   ⟨"FEEDB", 0x8200000000, 0xFF00000000⟩,
   ⟨"FEEDW", 0x8300000000, 0xFF00000000⟩,
   ⟨"SETRX", 0x8400000000, 0xFF00000000⟩,
   ⟨"WR.CRC_OUT", 0x8500000000, 0xFF00000000⟩,
   ⟨"WR.COUNT", 0x8600000000, 0xFF00000000⟩,
   ⟨"WR.TAG", 0x8700000000, 0xFF00000000⟩,
   ⟨"WR.RSV", 0x8800000000, 0xF800000000⟩]

/-- The rows of R94 for reads. -/
def readRows : List OpcodeRow :=
  [⟨"RD.CMD", 0x0000000000, 0xFF00000000⟩,
   ⟨"RD.STATUS", 0x0100000000, 0xFF00000000⟩,
   ⟨"RD.DIN_B", 0x0200000000, 0xFF00000000⟩,
   ⟨"RD.DIN_W", 0x0300000000, 0xFF00000000⟩,
   ⟨"RD.CRC_RX", 0x0400000000, 0xFF00000000⟩,
   ⟨"RD.CRC_OUT", 0x0500000000, 0xFF00000000⟩,
   ⟨"RD.COUNT", 0x0600000000, 0xFF00000000⟩,
   ⟨"RD.TAG", 0x0700000000, 0xFF00000000⟩,
   ⟨"RD.RSV", 0x0800000000, 0xF800000000⟩]

/-- The complete map of R94, in the order in which rows are tried (R93: increasing priority). -/
def opcodeMap : List OpcodeRow := commandRows ++ writeRows ++ readRows

/-- The instruction the decoder reads from the transaction whose key has the bits w, numbered as
spec/opcode_table.json numbers them. A key is one 40-bit number and has no layout in bytes (R91), so the bits are the
key's own; bits at nbits and above are 0, and a row wider than 40 bits is no key. DESIGN CHOICE, safe: log entry 9. -/
def decodeTableWord (nbits w : Nat) : Option Instr :=
  if 40 < nbits then none
  else
    match decode (BitVec.ofNat 40 (w % 2 ^ nbits)) with
    | .ok i => some i
    | .error _ => none

end Sys2Proof
end

