-- ==== Sys2Proof/Config.lean ====
section
/-! DEFINITION. What is fixed for the machine: the CRC constants of R14 and R16, the length limit of R5 and R32,
and the two parameters the spec leaves OPEN (R5, R52, D24, D26). -/

namespace Sys2Proof.Config

/-- POLY_R, the reflected generator constant (R14). -/
def polyR : Word := 0xEDB88320

/-- CRC_INIT, the value of ACC after START, ABORT and reset (R14, R31, R51). -/
def crcInit : Word := 0xFFFFFFFF

/-- CRC_XOROUT, the final XOR (R14, R16). -/
def crcXorOut : Word := 0xFFFFFFFF

/-- The largest number of data bytes COUNT can hold (R5, R32). -/
def maxCount : Word := 0xFFFFFFFF

/-- BASE_ADDR, where the platform places the 64-byte register window. OPEN (D26); nothing in the block's behaviour
depends on it (R5), and no step reads it. Log entry 13. -/
opaque baseAddr : Nat

/-- WAIT_STATES, the wait cycles of a transaction, possibly different per slot. OPEN (D24, R250); invisible at the
transaction level, and no definition of the machine reads it. Log entry 13. -/
opaque waitStates : Slot → Nat

end Sys2Proof.Config
end

