-- ==== Sys2Proof/Machine/State.lean ====
section
/-! DEFINITION. The state of the block (R30), the host events still to come, the values its reads returned, the
reasons a step can stop, and the state after reset (R51). -/

namespace Sys2Proof.Machine

/-- STATE, the sequencer state (R36). -/
inductive SeqState where
  /-- 0: no computation in progress. -/
  | idle
  /-- 1: collecting tag bytes. -/
  | tag
  /-- 2: tag complete, collecting data bytes. -/
  | data
  /-- 3: FINISH taken, RESULT valid. -/
  | done
  deriving DecidableEq, Repr

/-- MODE of the current or last computation (R36). -/
inductive Mode where
  /-- 0: generate. -/
  | gen
  /-- 1: validate. -/
  | chk
  deriving DecidableEq, Repr

/-- RESULT, the verdict of the last FINISH: the six codes of R36; 6 and 7 are no values of it (I12). -/
inductive Result where
  /-- 0: no FINISH since the last START, ABORT or reset. -/
  | none
  /-- 1. -/
  | ok
  /-- 2: fewer than 4 tag bytes. -/
  | shortTag
  /-- 3: a data byte was offered at the maximum COUNT. -/
  | lenOverflow
  /-- 4: a tag byte is not an ASCII letter. -/
  | badTag
  /-- 5: the computed CRC is not CRC_RX. -/
  | crcMismatch
  deriving DecidableEq, Repr

/-- TAGB[0..3], the four tag bytes in wire order (R33). -/
structure Tag where
  t0 : Byte
  t1 : Byte
  t2 : Byte
  t3 : Byte
  deriving DecidableEq, Repr

/-- The block's complete stored state, element for element (R30). -/
structure Block where
  /-- STATE. -/
  state : SeqState
  /-- MODE. -/
  mode : Mode
  /-- TAGCNT, the number of tag bytes absorbed. -/
  tagcnt : BitVec 3
  /-- TAGB[0..3]. -/
  tagb : Tag
  /-- ACC, the CRC shift register (R31). -/
  acc : Word
  /-- COUNT, the number of data bytes absorbed (R32). -/
  count : Word
  /-- CRC_RX, the received CRC (R34). -/
  crcRx : Word
  /-- OVF, sticky (R35). -/
  ovf : Bool
  /-- CMDERR, sticky (R35). -/
  cmderr : Bool
  /-- SEQERR, sticky (R35). -/
  seqerr : Bool
  /-- RESULT (R36). -/
  result : Result
  deriving DecidableEq, Repr

/-- What the outside world does to the block between two states (R8, R230, R236). -/
inductive HostEvent where
  /-- One transaction the port completes, written as its T40 key (R90, R91). -/
  | txn (k : Key)
  /-- `Reset()`: the reset input is asserted and released (R230). -/
  | reset
  /-- A transaction that a reset cuts off before it completes (R231). It has no step; a script that contains one is
  refused as a whole (R236). DEDUCED, safe: log entry 4. -/
  | cutOff (k : Key)
  deriving DecidableEq, Repr

/-- The machine: the block, the host's events still to come, and the values the reads of the run returned so far,
oldest first (R236). The last two are the model's own. DESIGN CHOICE, safe: log entries 1 and 2. -/
structure State where
  block : Block
  script : List HostEvent
  reads : List Word
  deriving DecidableEq, Repr

/-- Why the machine could stop with a fault. It has no constructor: "no state of the block is stuck, and no transaction
faults" (R236); every error is a value in STATUS (R200), and there is no trap (R210). DEDUCED, safe: log entry 4. -/
inductive Fault where
  deriving DecidableEq, Repr

/-- Why a step has no meaning. Every one of these is safe: the model stops where the spec gives no step. -/
inductive Refusal where
  /-- Raised by no arm at present: an instruction without a meaning. Safe. -/
  | notModelled (mnemonic : String)
  /-- Raised by step when the pending script holds a key with PAD != 000, which spells no transaction (R93, R236).
  Safe. -/
  | notATransaction
  /-- Raised by step when the pending script holds a transaction cut off by reset, for which the model has no step
  (R231, R236). Safe. -/
  | cutOffTransaction
  /-- Raised by step when no event is pending: the run has ended after its last step (R236). DEDUCED, safe: log
  entry 4. -/
  | scriptEnded
  deriving DecidableEq, Repr

/-- The reset value of every stored element (R51). -/
def Block.reset : Block where
  state := .idle
  mode := .gen
  tagcnt := 0
  tagb := ⟨0, 0, 0, 0⟩
  acc := 0xFFFFFFFF
  count := 0
  crcRx := 0
  ovf := false
  cmderr := false
  seqerr := false
  result := .none

/-- The machine right after reset: the block at its reset values (R51), no event pending and nothing read yet.
DESIGN CHOICE, safe, for the last two: log entries 1 and 2. -/
def State.reset : State where
  block := Block.reset
  script := []
  reads := []

end Sys2Proof.Machine
end

