-- ==== Sys2Proof/Machine/Crc.lean ====
section
/-! DEFINITION. The CRC-32 (ISO-HDLC) primitives (R14, R15, R16, R18). -/

namespace Sys2Proof.Machine

/-- One of the 8 shifts of R15: the register moves right, and the reflected constant is added when a 1 falls out. -/
def crcShift (a : Word) : Word :=
  if a.getLsbD 0 then (a >>> 1) ^^^ Config.polyR else a >>> 1

/-- `n` shifts (R15 `repeat`). -/
def crcShifts : Nat → Word → Word
  | 0, a => a
  | n + 1, a => crcShifts n (crcShift a)

/-- The register after byte b (R15). -/
def crcByte (acc : Word) (b : Byte) : Word := crcShifts 8 (acc ^^^ b.setWidth 32)

/-- crcByte over a byte sequence, first byte first (R16, R31). -/
def crcFold (acc : Word) (m : List Byte) : Word := m.foldl crcByte acc

/-- The final XOR (R16). -/
def crcFinal (acc : Word) : Word := acc ^^^ Config.crcXorOut

/-- The CRC-32 of a byte sequence (R16). -/
def crc32 (m : List Byte) : Word := crcFinal (crcFold Config.crcInit m)

/-- T[i] of the table-driven form (R18). -/
def crcTable (i : Byte) : Word := crcByte 0 i

/-- The table-driven byte update (R18, informative; I15). -/
def crcByteByTable (acc : Word) (b : Byte) : Word :=
  (acc >>> 8) ^^^ crcTable ((acc ^^^ b.setWidth 32).extractLsb' 0 8)

end Sys2Proof.Machine
end

