-- ==== Sys2Proof/Machine/Flags.lean ====
section
/-! DEFINITION. Letter case, the tag properties, the codes of STATUS and the STATUS word (R10 to R13, R36, R40, R41). -/

namespace Sys2Proof.Machine

/-- ASCII 'A' to 'Z' (R10). -/
def isUpper (b : Byte) : Bool := decide (0x41 ≤ b) && decide (b ≤ 0x5A)

/-- ASCII 'a' to 'z' (R11). -/
def isLower (b : Byte) : Bool := decide (0x61 ≤ b) && decide (b ≤ 0x7A)

/-- An ASCII letter (R12). -/
def isAlpha (b : Byte) : Bool := isUpper b || isLower b

/-- All four tag bytes are letters (R13). -/
def tagAlpha (t : Tag) : Bool := isAlpha t.t0 && isAlpha t.t1 && isAlpha t.t2 && isAlpha t.t3

/-- critical (R13). -/
def tagCritical (t : Tag) : Bool := isUpper t.t0

/-- public (R13). -/
def tagPublic (t : Tag) : Bool := isUpper t.t1

/-- reserved-bit-valid (R13). -/
def tagReservedOk (t : Tag) : Bool := isUpper t.t2

/-- safe-to-copy (R13). -/
def tagSafeToCopy (t : Tag) : Bool := isLower t.t3

/-- valid (R13, C6). -/
def tagValid (t : Tag) : Bool := tagAlpha t && tagReservedOk t

/-- The STATE code (R36). -/
def SeqState.code : SeqState → BitVec 2
  | .idle => 0
  | .tag => 1
  | .data => 2
  | .done => 3

/-- The MODE bit (R36). -/
def Mode.code : Mode → BitVec 1
  | .gen => 0
  | .chk => 1

/-- The RESULT code (R36). -/
def Result.code : Result → BitVec 3
  | .none => 0
  | .ok => 1
  | .shortTag => 2
  | .lenOverflow => 3
  | .badTag => 4
  | .crcMismatch => 5

/-- A tag flag of STATUS is the tag property once all 4 tag bytes are in, and 0 before (R41). It is 0 for TAGCNT 5 to
7 too, which no rule produces (R40, I13). DESIGN CHOICE, safe: log entry 5. -/
def Block.tagFlag (property : Tag → Bool) (b : Block) : Bool :=
  decide (b.tagcnt = 4) && property b.tagb

/-- The value a read of STATUS returns (R40). -/
def Block.status (b : Block) : Word :=
  (0#10 : BitVec 10)
    ++ BitVec.ofBool (b.tagFlag tagValid)
    ++ BitVec.ofBool (b.tagFlag tagSafeToCopy)
    ++ BitVec.ofBool (b.tagFlag tagReservedOk)
    ++ BitVec.ofBool (b.tagFlag tagPublic)
    ++ BitVec.ofBool (b.tagFlag tagCritical)
    ++ BitVec.ofBool (b.tagFlag tagAlpha)
    ++ (0#4 : BitVec 4)
    ++ b.result.code
    ++ BitVec.ofBool b.seqerr
    ++ BitVec.ofBool b.cmderr
    ++ BitVec.ofBool b.ovf
    ++ b.tagcnt
    ++ b.mode.code
    ++ b.state.code

end Sys2Proof.Machine
end

