-- ==== Sys2Proof/Machine/Operands.lean ====
section
/-! DEFINITION. Operand forms: the bytes of a word, the tag bytes, and the value each register slot reads as
(R38 to R48, R75, R92). -/

namespace Sys2Proof.Machine

/-- B0 = w[31:24], B1 = w[23:16], B2 = w[15:8], B3 = w[7:0], in that order (R43, R75, R92). -/
def wordBytes (w : Word) : List Byte :=
  [w.extractLsb' 24 8, w.extractLsb' 16 8, w.extractLsb' 8 8, w.extractLsb' 0 8]

/-- The word {b0, b1, b2, b3} (R7, R74). -/
def wordOfBytes (b0 b1 b2 b3 : Byte) : Word := b0 ++ b1 ++ b2 ++ b3

/-- The tag bytes in wire order (R33). -/
def Tag.bytes (t : Tag) : List Byte := [t.t0, t.t1, t.t2, t.t3]

/-- `TAGB[i] <- b` (R150). There is no byte beyond TAGB[3], so i of 4 and above writes nothing. DESIGN CHOICE, safe:
no reachable state comes there (R37 item 2, I13), log entry 5. -/
def Tag.set (t : Tag) (i : BitVec 3) (b : Byte) : Tag :=
  if i = 0 then { t with t0 := b }
  else if i = 1 then { t with t1 := b }
  else if i = 2 then { t with t2 := b }
  else if i = 3 then { t with t3 := b }
  else t

/-- The TAG register {TAGB[0], TAGB[1], TAGB[2], TAGB[3]} (R47). -/
def Block.tagWord (b : Block) : Word := wordOfBytes b.tagb.t0 b.tagb.t1 b.tagb.t2 b.tagb.t3

/-- The CRC_OUT register, live in every state (R45). -/
def Block.crcOut (b : Block) : Word := crcFinal b.acc

/-- The readable registers of the window (R38), the write-only and reserved slots among them. -/
inductive Reg where
  | cmd
  | status
  | dinB
  | dinW
  | crcRx
  | crcOut
  | count
  | tag
  | reserved
  deriving DecidableEq, Repr

/-- The value a read of a register returns. CMD, DIN_B, DIN_W and the reserved slots have no storage and read 0
(R39, R42, R43, R48); the others are R40, R44, R45, R46 and R47. -/
def Block.readReg (b : Block) : Reg → Word
  | .cmd => 0
  | .status => b.status
  | .dinB => 0
  | .dinW => 0
  | .crcRx => b.crcRx
  | .crcOut => b.crcOut
  | .count => b.count
  | .tag => b.tagWord
  | .reserved => 0

/-- The byte offset of a slot in the window (R38). -/
def slotOffset (n : Slot) : Nat := 4 * n.toNat

/-- Where the platform places a slot (R73, R78). The block sees the slot number only (R79), so no step reads this. -/
def slotAddress (n : Slot) : Nat := Config.baseAddr + slotOffset n

/-- The slot assignments of the register window (R38). -/
def slotReg (n : Slot) : Reg :=
  if n = 0 then .cmd
  else if n = 1 then .status
  else if n = 2 then .dinB
  else if n = 3 then .dinW
  else if n = 4 then .crcRx
  else if n = 5 then .crcOut
  else if n = 6 then .count
  else if n = 7 then .tag
  else .reserved

end Sys2Proof.Machine
end

