-- ==== Sys2Proof/Machine/Ops.lean ====
section
/-! DEFINITION. The shared operations over the block's registers, the read port and the host's events. The block takes
no exception (R210), so there is no operation for taking one or returning from one. -/

namespace Sys2Proof.Machine

/-! ## Updates of the block -/

/-- `SEQERR <- 1` (R126, R150). -/
def Block.setSeqErr (b : Block) : Block := { b with seqerr := true }

/-- `CMDERR <- 1` (R131). -/
def Block.setCmdErr (b : Block) : Block := { b with cmderr := true }

/-- `OVF <- 1` (R150). -/
def Block.setOvf (b : Block) : Block := { b with ovf := true }

/-- `CRC_RX <- v` (R170). -/
def Block.setCrcRx (v : Word) (b : Block) : Block := { b with crcRx := v }

/-- The TAG arm of absorb: x is tag byte number TAGCNT (R150). TAGCNT is 3 bits wide and its addition wraps; no
reachable state comes to that (R37 items 2 and 6, I13). DESIGN CHOICE, safe: log entry 5. -/
def Block.takeTagByte (x : Byte) (b : Block) : Block :=
  { b with
    tagb := b.tagb.set b.tagcnt x
    acc := crcByte b.acc x
    tagcnt := b.tagcnt + 1
    state := if b.tagcnt + 1 = 4 then .data else b.state }

/-- The DATA arm of absorb below the maximum COUNT: x is a data byte (R150). -/
def Block.takeDataByte (x : Byte) (b : Block) : Block :=
  { b with acc := crcByte b.acc x, count := b.count + 1 }

/-- `absorb(x)`: the block's handling of one input byte (R150). -/
def Block.absorb (x : Byte) (b : Block) : Block :=
  match b.state with
  | .idle => b.setSeqErr
  | .done => b.setSeqErr
  | .tag => b.takeTagByte x
  | .data => if b.count = Config.maxCount then b.setOvf else b.takeDataByte x

/-- Absorb bytes one after another, each seeing the state the one before left (R152, R156). -/
def Block.absorbAll (xs : List Byte) (b : Block) : Block := xs.foldl (fun c x => c.absorb x) b

/-- Begin a computation in mode m; only CRC_RX survives (R122, R123). -/
def Block.start (m : Mode) (b : Block) : Block where
  state := .tag
  mode := m
  tagcnt := 0
  tagb := ⟨0, 0, 0, 0⟩
  acc := Config.crcInit
  count := 0
  crcRx := b.crcRx
  ovf := false
  cmderr := false
  seqerr := false
  result := .none

/-- Return to IDLE; only CRC_RX survives (R129). -/
def Block.abort (b : Block) : Block where
  state := .idle
  mode := .gen
  tagcnt := 0
  tagb := ⟨0, 0, 0, 0⟩
  acc := Config.crcInit
  count := 0
  crcRx := b.crcRx
  ovf := false
  cmderr := false
  seqerr := false
  result := .none

/-- The verdict function: the first test that holds decides (R124, R203). -/
def Block.finishResult (b : Block) : Result :=
  if b.tagcnt < 4 then .shortTag
  else if b.ovf then .lenOverflow
  else if !tagAlpha b.tagb then .badTag
  else if b.mode = .chk ∧ crcFinal b.acc ≠ b.crcRx then .crcMismatch
  else .ok

/-- `RESULT <- r; STATE <- DONE` (R126). -/
def Block.recordVerdict (r : Result) (b : Block) : Block := { b with result := r, state := .done }

/-- FINISH: accepted in TAG and DATA, an error of sequence in IDLE and DONE (R126). -/
def Block.finish (b : Block) : Block :=
  match b.state with
  | .tag => b.recordVerdict b.finishResult
  | .data => b.recordVerdict b.finishResult
  | .idle => b.setSeqErr
  | .done => b.setSeqErr

/-! ## Updates of the machine -/

/-- Put a new block in place. -/
def State.setBlock (c : Block) (s : State) : State := { s with block := c }

/-- A read completes: rdata carries v to the host (R84), which adds it to the run's observation (R236). -/
def State.observe (v : Word) (s : State) : State := { s with reads := s.reads ++ [v] }

/-- A completed write whose effect on the block is f; it leaves everything else alone. -/
def onBlock (f : Block → Block) (s : State) : Host.Outcome State Fault Refusal :=
  .next (s.setBlock (f s.block))

/-- A completed write that is ignored: no state element changes (R180). -/
def ignoreWrite (s : State) : Host.Outcome State Fault Refusal := .next s

/-- A completed read of register r; it changes nothing in the block (R71). -/
def readRegister (r : Reg) (s : State) : Host.Outcome State Fault Refusal :=
  .next (s.observe (s.block.readReg r))

/-- `Reset()`: every element of the block takes its reset value (R230, R51). The events to come and the values already
read belong to the host and stay. DEDUCED, safe: log entry 2. -/
def takeReset (s : State) : State := s.setBlock Block.reset

/-! ## Where the next event comes from -/

/-- Why an event has no step, if it has none (R236): the decoder refuses its key (R93), or a reset cuts it off
(R231). -/
def HostEvent.refusal : HostEvent → Option Refusal
  | .txn k =>
    match decode k with
    | .ok _ => none
    | .error _ => some .notATransaction
  | .reset => none
  | .cutOff _ => some .cutOffTransaction

/-- The first reason to refuse a script. A script that contains an event without a step "is refused as a whole; it is
not a run that ends early" (R236). DEDUCED, safe: log entry 3. -/
def scriptRefusal : List HostEvent → Option Refusal
  | [] => none
  | e :: rest =>
    match e.refusal with
    | some r => some r
    | none => scriptRefusal rest

/-- The next event and the machine with that event taken off the script. With no event left there is no step (R236).
DEDUCED, safe: log entry 4. -/
def fetchEvent (s : State) : Except Refusal (HostEvent × State) :=
  match scriptRefusal s.script with
  | some r => .error r
  | none =>
    match s.script with
    | [] => .error .scriptEnded
    | e :: rest => .ok (e, { s with script := rest })

end Sys2Proof.Machine
end

