-- ==== Sys2Proof/Machine/Commands.lean ====
section
/-! DEFINITION. The command family (40_commands.md): writes of the CMD slot. -/

namespace Sys2Proof.Machine

/-- NOP: no state change (R121). -/
def execNop (s : State) : Host.Outcome State Fault Refusal := .next s

/-- START.GEN: begin a generate computation (R122). -/
def execStartGen (s : State) : Host.Outcome State Fault Refusal := onBlock (Block.start .gen) s

/-- START.CHK: begin a validate computation (R123). -/
def execStartChk (s : State) : Host.Outcome State Fault Refusal := onBlock (Block.start .chk) s

/-- FINISH: end the computation and record its verdict (R126). -/
def execFinish (s : State) : Host.Outcome State Fault Refusal := onBlock Block.finish s

/-- ABORT: abandon any computation (R129). -/
def execAbort (s : State) : Host.Outcome State Fault Refusal := onBlock Block.abort s

/-- CMD.RSV: set CMDERR and change nothing else, whatever the value is (R131). For a value in 0..4, which no key
decodes to this instruction, it does the same. DESIGN CHOICE, safe: log entry 12. -/
def execCmdRsv (_v : Word) (s : State) : Host.Outcome State Fault Refusal := onBlock Block.setCmdErr s

end Sys2Proof.Machine
end

