-- ==== Sys2Proof/Machine/Feed.lean ====
section
/-! DEFINITION. The data-feed family (41_data_feed.md): writes of DIN_B and DIN_W. -/

namespace Sys2Proof.Machine

/-- FEEDB: feed one byte (R155). -/
def execFeedb (x : Byte) (s : State) : Host.Outcome State Fault Refusal := onBlock (Block.absorb x) s

/-- FEEDW: feed four bytes, most significant first, in one transaction (R156). -/
def execFeedw (w : Word) (s : State) : Host.Outcome State Fault Refusal := onBlock (Block.absorbAll (wordBytes w)) s

end Sys2Proof.Machine
end

