-- ==== Sys2Proof/Machine/RegAccess.lean ====
section
/-! DEFINITION. The register-access family (42_register_access.md): SETRX, the reads and the ignored writes. -/

namespace Sys2Proof.Machine

/-- SETRX: write the received CRC (R170). -/
def execSetrx (v : Word) (s : State) : Host.Outcome State Fault Refusal := onBlock (Block.setCrcRx v) s

/-- RD.CMD (R171). -/
def execRdCmd (s : State) : Host.Outcome State Fault Refusal := readRegister .cmd s

/-- RD.STATUS (R172). -/
def execRdStatus (s : State) : Host.Outcome State Fault Refusal := readRegister .status s

/-- RD.DIN_B (R173). -/
def execRdDinB (s : State) : Host.Outcome State Fault Refusal := readRegister .dinB s

/-- RD.DIN_W (R175). -/
def execRdDinW (s : State) : Host.Outcome State Fault Refusal := readRegister .dinW s

/-- RD.CRC_RX (R174). -/
def execRdCrcRx (s : State) : Host.Outcome State Fault Refusal := readRegister .crcRx s

/-- RD.CRC_OUT (R176). -/
def execRdCrcOut (s : State) : Host.Outcome State Fault Refusal := readRegister .crcOut s

/-- RD.COUNT (R177). -/
def execRdCount (s : State) : Host.Outcome State Fault Refusal := readRegister .count s

/-- RD.TAG (R178). -/
def execRdTag (s : State) : Host.Outcome State Fault Refusal := readRegister .tag s

/-- RD.RSV n (R179). For n in 0..7, which no key decodes to this instruction, it does the same. DESIGN CHOICE, safe:
log entry 12. -/
def execRdRsv (_n : Slot) (s : State) : Host.Outcome State Fault Refusal := readRegister .reserved s

/-- WR.STATUS (R181). -/
def execWrStatus (_x : Word) (s : State) : Host.Outcome State Fault Refusal := ignoreWrite s

/-- WR.CRC_OUT (R182). -/
def execWrCrcOut (_x : Word) (s : State) : Host.Outcome State Fault Refusal := ignoreWrite s

/-- WR.COUNT (R183). -/
def execWrCount (_x : Word) (s : State) : Host.Outcome State Fault Refusal := ignoreWrite s

/-- WR.TAG (R184). -/
def execWrTag (_x : Word) (s : State) : Host.Outcome State Fault Refusal := ignoreWrite s

/-- WR.RSV n (R185). For n in 0..7, which no key decodes to this instruction, it does the same. DESIGN CHOICE, safe:
log entry 12. -/
def execWrRsv (_n : Slot) (_x : Word) (s : State) : Host.Outcome State Fault Refusal := ignoreWrite s

end Sys2Proof.Machine
end

