-- ==== Sys2Proof/Machine/Dispatch.lean ====
section
/-! DEFINITION. The one dispatch of the machine: each row of the opcode map (R94) to its meaning. -/

namespace Sys2Proof.Machine

def exec (i : Instr) (s : State) : Host.Outcome State Fault Refusal :=
  match i with
  | .nop => Sys2Proof.Machine.execNop s
  | .startGen => Sys2Proof.Machine.execStartGen s
  | .startChk => Sys2Proof.Machine.execStartChk s
  | .finish => Sys2Proof.Machine.execFinish s
  | .abort => Sys2Proof.Machine.execAbort s
  | .cmdRsv v => Sys2Proof.Machine.execCmdRsv v s
  | .wrStatus x => Sys2Proof.Machine.execWrStatus x s
  | .feedb b => Sys2Proof.Machine.execFeedb b s
  | .feedw w => Sys2Proof.Machine.execFeedw w s
  | .setrx v => Sys2Proof.Machine.execSetrx v s
  | .wrCrcOut x => Sys2Proof.Machine.execWrCrcOut x s
  | .wrCount x => Sys2Proof.Machine.execWrCount x s
  | .wrTag x => Sys2Proof.Machine.execWrTag x s
  | .wrRsv n x => Sys2Proof.Machine.execWrRsv n x s
  | .rdCmd => Sys2Proof.Machine.execRdCmd s
  | .rdStatus => Sys2Proof.Machine.execRdStatus s
  | .rdDinB => Sys2Proof.Machine.execRdDinB s
  | .rdDinW => Sys2Proof.Machine.execRdDinW s
  | .rdCrcRx => Sys2Proof.Machine.execRdCrcRx s
  | .rdCrcOut => Sys2Proof.Machine.execRdCrcOut s
  | .rdCount => Sys2Proof.Machine.execRdCount s
  | .rdTag => Sys2Proof.Machine.execRdTag s
  | .rdRsv n => Sys2Proof.Machine.execRdRsv n s

end Sys2Proof.Machine
end

