-- ==== Sys2Proof/Machine/Events.lean ====
section
/-! DEFINITION. What one host event does to the machine (R236), and the register port seen as BusWrite and BusRead
(R8, R84). -/

namespace Sys2Proof.Machine

/-- One step's effect: a completed transaction runs the instruction its key spells (R93), and Reset() resets the
block (R230). An event without a step is refused (R236). -/
def runEvent (e : HostEvent) (s : State) : Host.Outcome State Fault Refusal :=
  match e with
  | .txn k =>
    match decode k with
    | .ok i => exec i s
    | .error _ => .refused .notATransaction
  | .reset => .next (takeReset s)
  | .cutOff _ => .refused .cutOffTransaction

/-- The effect of a 32-bit command word written to CMD (R39, R121 to R131). -/
def Block.command (w : Word) (b : Block) : Block :=
  if w = 0 then b
  else if w = 1 then b.start .gen
  else if w = 2 then b.start .chk
  else if w = 3 then b.finish
  else if w = 4 then b.abort
  else b.setCmdErr

/-- The effect of a write on the register it reaches (R38 to R48): CMD, DIN_B, DIN_W and CRC_RX act, and a write of a
read-only or reserved slot is ignored. -/
def Block.writeReg (r : Reg) (w : Word) (b : Block) : Block :=
  match r with
  | .cmd => b.command w
  | .status => b
  | .dinB => b.absorb (lowByte w)
  | .dinW => b.absorbAll (wordBytes w)
  | .crcRx => b.setCrcRx w
  | .crcOut => b
  | .count => b
  | .tag => b
  | .reserved => b

/-- `BusWrite(waddr, wdata)` by the register map (R8, R38). -/
def busWrite (waddr : Slot) (wdata : Word) (s : State) : State :=
  s.setBlock (s.block.writeReg (slotReg waddr) wdata)

/-- `BusRead(waddr) -> rdata` by the register map (R8, R38): the value, and the machine that has returned it. -/
def busRead (waddr : Slot) (s : State) : Word × State :=
  let v := s.block.readReg (slotReg waddr)
  (v, s.observe v)

end Sys2Proof.Machine
end

