-- ==== Sys2Proof/Machine/Step.lean ====
section
/-! DEFINITION. One step: one completed transaction or one Reset() (R236). -/

namespace Sys2Proof.Machine

/-- One step of the machine: take the next event of the script and run it; refused by name where there is no step
(R236). -/
def step (s : State) : Host.Outcome State Fault Refusal :=
  match fetchEvent s with
  | .error r => .refused r
  | .ok (e, s') => runEvent e s'

/-- s with the one transaction whose key has the bits w pending and nothing after it, so that the next step runs
exactly that transaction. This stands for the host placing a script. DESIGN CHOICE, safe: log entries 1 and 9. -/
def State.withFetchWord (s : State) (nbits w : Nat) : State :=
  { s with script := [.txn (BitVec.ofNat 40 (w % 2 ^ nbits))] }

end Sys2Proof.Machine
end

