-- ==== Sys2Proof/Machine/Script.lean ====
section
/-! DEFINITION. Sequences of instructions and the pseudo-instructions of the script syntax (R98). -/

namespace Sys2Proof.Machine

/-- Run instructions one after another, stopping at the first that stops (R80). -/
def execAll : List Instr → State → Host.Outcome State Fault Refusal
  | [], s => .next s
  | i :: rest, s =>
    match exec i s with
    | .next t => execAll rest t
    | .fault r => .fault r
    | .refused r => .refused r

/-- `CMD imm32`: the one CMD-slot row it meets (R98). -/
def pseudoCmd (v : Word) : List Instr := [decodeCommand v]

/-- `FEED bytes`: words of four while they last, then single bytes (R98). -/
def pseudoFeed : List Byte → List Instr
  | b0 :: b1 :: b2 :: b3 :: rest => .feedw (wordOfBytes b0 b1 b2 b3) :: pseudoFeed rest
  | [b0, b1, b2] => [.feedb b0, .feedb b1, .feedb b2]
  | [b0, b1] => [.feedb b0, .feedb b1]
  | [b0] => [.feedb b0]
  | [] => []

/-- `GEN tag, data` (R98). -/
def pseudoGen (tag data : List Byte) : List Instr :=
  .startGen :: (pseudoFeed (tag ++ data) ++ [.finish, .rdStatus, .rdCrcOut, .rdCount])

/-- `CHK tag, data, crc` (R98). -/
def pseudoChk (tag data : List Byte) (crc : Word) : List Instr :=
  .startChk :: .setrx crc :: (pseudoFeed (tag ++ data) ++ [.finish, .rdStatus])

/-- Whether an instruction is a feed (41_data_feed.md). -/
def isFeed : Instr → Bool
  | .feedb _ => true
  | .feedw _ => true
  | _ => false

/-- The bytes a feed offers to absorb, in order (R152); none for any other instruction. -/
def feedBytes : Instr → List Byte
  | .feedb b => [b]
  | .feedw w => wordBytes w
  | _ => []

end Sys2Proof.Machine
end

