-- ==== Sys2Proof/Machine/Asm.lean ====
section
/-! DEFINITION. The text syntax of a transaction script: operands, lines, keys (R97, R98, R99). It describes the
spelling of transactions only; no step reads it. -/

namespace Sys2Proof.Machine

/-- The operands a disassembler prints, in the order of R97. -/
def instrOperands : Instr → List Nat
  | .cmdRsv v => [v.toNat]
  | .wrStatus x => [x.toNat]
  | .feedb b => [b.toNat]
  | .feedw w => [w.toNat]
  | .setrx v => [v.toNat]
  | .wrCrcOut x => [x.toNat]
  | .wrCount x => [x.toNat]
  | .wrTag x => [x.toNat]
  | .wrRsv n x => [n.toNat, x.toNat]
  | .rdRsv n => [n.toNat]
  | _ => []

/-- What a disassembler prints for a key: the mnemonic of R94 and the operands of R97. -/
def disassemble (k : Key) : Except DecodeError (String × List Nat) :=
  match decode k with
  | .ok i => .ok (i.mnemonic, instrOperands i)
  | .error e => .error e

/-- A value must fit its field (R97). -/
def fitField (w : Nat) (n : Nat) : Option (BitVec w) :=
  if n < 2 ^ w then some (BitVec.ofNat w n) else none

/-- The forms without an operand (R97). -/
def plainForms : List Instr :=
  [.nop, .startGen, .startChk, .finish, .abort, .rdCmd, .rdStatus, .rdDinB, .rdDinW, .rdCrcRx, .rdCrcOut, .rdCount,
   .rdTag]

/-- The forms with one operand (R97). CMD.RSV takes no value in 0..4, and a slot operand is 8..15. -/
def oneOperandForm (m : String) (x : Nat) : Option Instr :=
  if m = "CMD.RSV" then
    (fitField 32 x).bind fun v => if isReservedCommand v then some (.cmdRsv v) else none
  else if m = "FEEDB" then (fitField 8 x).map .feedb
  else if m = "FEEDW" then (fitField 32 x).map .feedw
  else if m = "SETRX" then (fitField 32 x).map .setrx
  else if m = "WR.STATUS" then (fitField 32 x).map .wrStatus
  else if m = "WR.CRC_OUT" then (fitField 32 x).map .wrCrcOut
  else if m = "WR.COUNT" then (fitField 32 x).map .wrCount
  else if m = "WR.TAG" then (fitField 32 x).map .wrTag
  else if m = "RD.RSV" then
    (fitField 4 x).bind fun n => if isReservedSlot n then some (.rdRsv n) else none
  else none

/-- `WR.RSV slot, imm32` (R97). -/
def twoOperandForm (m : String) (n x : Nat) : Option Instr :=
  if m = "WR.RSV" then
    (fitField 4 n).bind fun slot =>
      if isReservedSlot slot then (fitField 32 x).map (.wrRsv slot) else none
  else none

/-- Assemble one instruction from its mnemonic and operand values (R97). -/
def assemble (m : String) (operands : List Nat) : Option Instr :=
  match operands with
  | [] => plainForms.find? fun i => i.mnemonic = m
  | [x] => oneOperandForm m x
  | [n, x] => twoOperandForm m n x
  | _ => none

/-- The value of a digit of base 16 or below, and 16 for any other character; both cases of a letter are taken. DESIGN
CHOICE, safe: log entry 11. -/
def digitValue (c : Char) : Nat :=
  let n := c.toNat
  if 48 ≤ n ∧ n ≤ 57 then n - 48
  else if 65 ≤ n ∧ n ≤ 70 then n - 55
  else if 97 ≤ n ∧ n ≤ 102 then n - 87
  else 16

/-- The value of a non-empty digit string. -/
def digitsValue (base : Nat) : List Char → Nat → Option Nat
  | [], acc => some acc
  | c :: rest, acc => if digitValue c < base then digitsValue base rest (acc * base + digitValue c) else none

/-- `imm := "0x" hexdigits | decimal` (R97). -/
def parseImm : List Char → Option Nat
  | '0' :: 'x' :: c :: rest => digitsValue 16 (c :: rest) 0
  | c :: rest => digitsValue 10 (c :: rest) 0
  | [] => none

/-- The tokens of a line. -/
inductive Token where
  | word (text : List Char)
  | quoted (text : List Char)
  | comma
  deriving DecidableEq, Repr

/-- The word read so far, if there is one. -/
def flushWord (acc : List Char) : List Token :=
  match acc with
  | [] => []
  | _ :: _ => [.word acc.reverse]

/-- Split a line into tokens: blanks separate, a comment runs from ';' to the end, and a quoted string is one token
(R97, R98). An unclosed quote makes no line. DESIGN CHOICE, safe: log entry 11. -/
def lexLine : List Char → Bool → List Char → Option (List Token)
  | [], false, acc => some (flushWord acc)
  | [], true, _ => none
  | c :: rest, true, acc =>
    if c = '"' then (lexLine rest false []).map (Token.quoted acc.reverse :: ·)
    else lexLine rest true (c :: acc)
  | c :: rest, false, acc =>
    if c = ';' then some (flushWord acc)
    else if c = ',' then (lexLine rest false []).map (flushWord acc ++ Token.comma :: ·)
    else if c = '"' then (lexLine rest true []).map (flushWord acc ++ ·)
    else if c = ' ' ∨ c = '\t' then (lexLine rest false []).map (flushWord acc ++ ·)
    else lexLine rest false (c :: acc)

/-- The bytes of a quoted ASCII string, in order (R98). -/
def asciiBytes : List Char → Option (List Byte)
  | [] => some []
  | c :: rest =>
    if c.toNat < 128 then (asciiBytes rest).map (BitVec.ofNat 8 c.toNat :: ·) else none

/-- A byte list `b0, b1, ..., b(n-1)` (R98). -/
def byteList : List Token → Option (List Byte)
  | [.word x] => ((parseImm x).bind (fitField 8)).map ([·])
  | .word x :: .comma :: rest =>
    ((parseImm x).bind (fitField 8)).bind fun b => (byteList rest).map (b :: ·)
  | _ => none

/-- A line of instructions or of one pseudo-instruction (R97, R98). A slot operand is spelled as any other number is, in
hexadecimal too and with leading zeros; a tag operand of GEN and CHK may have any length, and its bytes are fed as
they stand. DESIGN CHOICE, safe, for both: log entry 11. -/
def parseTokens : List Token → Option (List Instr)
  | [] => some []
  | [.word m] =>
    if String.ofList m = "FEED" then some [] else (assemble (String.ofList m) []).map ([·])
  | .word m :: args =>
    let name := String.ofList m
    if name = "CMD" then
      match args with
      | [.word x] => ((parseImm x).bind (fitField 32)).map pseudoCmd
      | _ => none
    else if name = "FEED" then
      match args with
      | [.quoted x] => (asciiBytes x).map pseudoFeed
      | _ => (byteList args).map pseudoFeed
    else if name = "GEN" then
      match args with
      | [.quoted t, .comma, .quoted d] =>
        (asciiBytes t).bind fun tag => (asciiBytes d).map fun data => pseudoGen tag data
      | _ => none
    else if name = "CHK" then
      match args with
      | [.quoted t, .comma, .quoted d, .comma, .word c] =>
        (asciiBytes t).bind fun tag => (asciiBytes d).bind fun data =>
          ((parseImm c).bind (fitField 32)).map fun crc => pseudoChk tag data crc
      | _ => none
    else
      match args with
      | [.word x] => (parseImm x).bind fun v => (assemble name [v]).map ([·])
      | [.word n, .comma, .word x] =>
        (parseImm n).bind fun slot => (parseImm x).bind fun v => (assemble name [slot, v]).map ([·])
      | _ => none
  | _ => none

/-- One line of a transaction script: the instructions it stands for, none for a blank or comment line (R97, R98). -/
def parseLine (line : List Char) : Option (List Instr) := (lexLine line false []).bind parseTokens

/-- A key written as 10 hexadecimal digits (R91, R99). -/
def parseKey (digits : List Char) : Option Key :=
  if digits.length = 10 then (digitsValue 16 digits 0).bind (fitField 40) else none

end Sys2Proof.Machine
end

