-- ==== Sys2Proof/Machine/Wire.lean ====
section
/-! DEFINITION. The host's conversions between the block's numbers and the big-endian wire fields (R34, R74). -/

namespace Sys2Proof.Machine

/-- The number a 4-byte big-endian field stands for, first wire byte most significant (R34, R74). -/
def fieldValue (c0 c1 c2 c3 : Byte) : Word := wordOfBytes c0 c1 c2 c3

/-- The length field bytes L0 L1 L2 L3, from COUNT (R74, R245). -/
def Block.lengthField (b : Block) : List Byte := wordBytes b.count

/-- The CRC field bytes C0 C1 C2 C3, from CRC_OUT (R74, R176). -/
def Block.crcField (b : Block) : List Byte := wordBytes b.crcOut

/-- The wire form of the chunk whose tag and data the block has absorbed: length, type, data, CRC (R19, R74). The
block keeps no payload, so the host supplies the data again (R70). -/
def Block.wireChunk (data : List Byte) (b : Block) : List Byte :=
  b.lengthField ++ b.tagb.bytes ++ data ++ b.crcField

end Sys2Proof.Machine
end

