-- ==== Sys2Proof/Safety.lean ====
section
/-! DEFINITION. What holds of every state reachable from reset (R33, R37), and what the host may accept (R204, R245). -/

namespace Sys2Proof.Machine

/-- The tag bytes absorbed so far, TAGB[0..TAGCNT-1] (R37 item 7). -/
def Block.tagPrefix (b : Block) : List Byte := b.tagb.bytes.take b.tagcnt.toNat

/-- The invariants of R37, in its order, and of R33. -/
structure Block.Inv (b : Block) : Prop where
  /-- R37 item 1. -/
  idle : b.state = .idle →
    b.tagcnt = 0 ∧ b.count = 0 ∧ b.acc = 0xFFFFFFFF ∧ b.tagb = ⟨0, 0, 0, 0⟩ ∧ b.ovf = false ∧ b.result = .none
  /-- R37 item 2. -/
  tag : b.state = .tag → b.tagcnt < 4 ∧ b.count = 0 ∧ b.ovf = false ∧ b.result = .none
  /-- R37 item 3. -/
  data : b.state = .data → b.tagcnt = 4 ∧ b.result = .none
  /-- R37 item 4. -/
  done : b.state = .done ↔ b.result ≠ .none
  /-- R37 item 5. -/
  ovf : b.ovf = true → b.count = 0xFFFFFFFF ∧ b.tagcnt = 4
  /-- R37 item 6; RESULT <= 5 holds by its type. -/
  tagcnt : b.tagcnt ≤ 4
  /-- R37 item 7. -/
  acc : ∃ d : List Byte, d.length = b.count.toNat ∧ b.acc = crcFold 0xFFFFFFFF (b.tagPrefix ++ d)
  /-- R37 item 8. -/
  seqerr : b.state = .tag ∨ b.state = .data → b.seqerr = false
  /-- R33: a tag byte not yet absorbed holds 0x00. -/
  unfilled : ∀ n, b.tagcnt.toNat ≤ n → n < 4 → b.tagb.bytes[n]? = some 0

/-- The machine's invariant: its block is one that the rules can reach. -/
def State.Inv (s : State) : Prop := s.block.Inv

/-- An event has a step (R236). -/
def HostEvent.Admissible (e : HostEvent) : Prop := e.refusal = none

/-- The next event of the script is a completed transaction that spells i (R93). -/
def State.NextRuns (i : Instr) (s : State) : Prop := ∃ k rest, s.script = .txn k :: rest ∧ decode k = .ok i

/-- The next event of the script is Reset() (R230). -/
def State.NextResets (s : State) : Prop := ∃ rest, s.script = .reset :: rest

/-- The transactions that discard a computation and its results (R243): START.GEN, START.CHK and ABORT. -/
def isRestart (i : Instr) : Prop := i = .startGen ∨ i = .startChk ∨ i = .abort

/-- The register a read returns; none for a write (R171 to R179). -/
def readTarget : Instr → Option Reg
  | .rdCmd => some .cmd
  | .rdStatus => some .status
  | .rdDinB => some .dinB
  | .rdDinW => some .dinW
  | .rdCrcRx => some .crcRx
  | .rdCrcOut => some .crcOut
  | .rdCount => some .count
  | .rdTag => some .tag
  | .rdRsv _ => some .reserved
  | .nop => none
  | .startGen => none
  | .startChk => none
  | .finish => none
  | .abort => none
  | .cmdRsv _ => none
  | .wrStatus _ => none
  | .feedb _ => none
  | .feedw _ => none
  | .setrx _ => none
  | .wrCrcOut _ => none
  | .wrCount _ => none
  | .wrTag _ => none
  | .wrRsv _ _ => none

/-- The host accepts a validated chunk: RESULT = OK in CHK mode, and COUNT is the declared length (R204, R245). -/
def Block.hostAccepts (declared : Word) (b : Block) : Bool :=
  decide (b.mode = .chk) && decide (b.result = .ok) && decide (b.count = declared)

/-- No host programming error was recorded: STATUS[8:7] = 00 (R204). -/
def Block.cleanRun (b : Block) : Bool := b.status.extractLsb' 7 2 = 0

end Sys2Proof.Machine
end

