-- ==== Sys2Proof/Certificates/Slice0/Obligations.lean ====
section
/-! DEFINITION. The statements for the provers, by file of spec/. Every `exec i s = .next …` is also the completion
statement of its instruction, and its right side is the whole next state, so it is the frame as well. -/

open Sys2Proof Sys2Proof.Machine

/-! ## 00_scope.md: primitives -/

/-- R10, R11, R12: letter case is by byte range; a non-letter is neither. -/
def Obligations.LetterCaseIsByByteRange : Prop :=
  ∀ b : Byte,
    (isUpper b = true ↔ 0x41 ≤ b.toNat ∧ b.toNat ≤ 0x5A) ∧
    (isLower b = true ↔ 0x61 ≤ b.toNat ∧ b.toNat ≤ 0x7A) ∧
    (isAlpha b = true ↔ isUpper b = true ∨ isLower b = true) ∧
    (isAlpha b = false → isUpper b = false ∧ isLower b = false)

/-- R13: the six tag properties. -/
def Obligations.TagPropertiesFollowLetterCase : Prop :=
  ∀ t0 t1 t2 t3 : Byte,
    (tagAlpha ⟨t0, t1, t2, t3⟩ = true ↔
      isAlpha t0 = true ∧ isAlpha t1 = true ∧ isAlpha t2 = true ∧ isAlpha t3 = true) ∧
    tagCritical ⟨t0, t1, t2, t3⟩ = isUpper t0 ∧
    tagPublic ⟨t0, t1, t2, t3⟩ = isUpper t1 ∧
    tagReservedOk ⟨t0, t1, t2, t3⟩ = isUpper t2 ∧
    tagSafeToCopy ⟨t0, t1, t2, t3⟩ = isLower t3 ∧
    (tagValid ⟨t0, t1, t2, t3⟩ = true ↔
      tagAlpha ⟨t0, t1, t2, t3⟩ = true ∧ tagReservedOk ⟨t0, t1, t2, t3⟩ = true)

/-- R15: crcByte is eight conditional shifts with the reflected constant. -/
def Obligations.CrcByteIsEightReflectedShifts : Prop :=
  ∀ (acc : Word) (b : Byte),
    crcByte acc b =
      (fun a : Word => if a[0] then (a >>> 1) ^^^ 0xEDB88320#32 else a >>> 1)^[8] (acc ^^^ b.setWidth 32)

/-- R16: crc32 folds crcByte over the bytes, first byte first, from 0xFFFFFFFF, and XORs at the end. -/
def Obligations.CrcFoldsBytesFirstToLast : Prop :=
  (∀ a : Word, crcFinal a = a ^^^ 0xFFFFFFFF#32) ∧
  (∀ m : List Byte, crc32 m = crcFinal (m.foldl crcByte 0xFFFFFFFF#32)) ∧
  (∀ (t : Tag) (d : List Byte),
    crc32 (t.bytes ++ d) =
      crcFinal ((d.foldl crcByte
        (crcByte (crcByte (crcByte (crcByte 0xFFFFFFFF#32 t.t0) t.t1) t.t2) t.t3))))

/-- R17 item 3, which the spec marks "[derived: from rule R15 and rule R16]": the register update is GF(2)-linear in
the register and the byte together. -/
def Obligations.CrcByteIsLinear : Prop :=
  (∀ (a a' : Word) (b b' : Byte),
    crcByte (a ^^^ a') (b ^^^ b') = crcByte a b ^^^ crcByte a' b' ^^^ crcByte 0 0) ∧
  crcByte 0 0 = 0

/-- R17 item 4, "a change confined to any one byte of M always changes crc32(M)", which the spec gives from general
knowledge. -/
def Obligations.OneByteChangeAlwaysChangesCrc : Prop :=
  ∀ (before after : List Byte) (b b' : Byte), b ≠ b' →
    crc32 (before ++ b :: after) ≠ crc32 (before ++ b' :: after)

/-- R18, which the spec marks "[derived: from rule R15 by GF(2) linearity, rule R17 item 3]": the table-driven update
is the bit-serial one, for one byte and for any sequence of bytes. -/
def Obligations.TableDrivenCrcEqualsBitSerial : Prop :=
  (∀ (acc : Word) (b : Byte),
    crcByte acc b = (acc >>> 8) ^^^ crcByte 0 ((acc ^^^ b.setWidth 32).extractLsb' 0 8)) ∧
  (∀ (acc : Word) (m : List Byte), m.foldl crcByteByTable acc = m.foldl crcByte acc)

/-! ## 30_encoding.md: keys -/

/-- Decoding the canonical key of any well-formed instruction gives it back, with every operand. -/
def Obligations.DecodeInvertsEncode : Prop :=
  ∀ i : Instr, i.WellFormed → decode (encode i) = .ok i

/-- What the decoder answers is well formed, and its encoding is the key read with the bits that are no operand of the
instruction set to 0: WDATA of a read (R91) and WDATA[31:8] of FEEDB (R97). -/
def Obligations.DecodeLosesOnlyIgnoredBits : Prop :=
  ∀ (k : Key) (i : Instr), decode k = .ok i → i.WellFormed ∧ encode i = k.canonical

/-- R93: the decode procedure, and its agreement with the opcode map tried in increasing priority. -/
def Obligations.DecodeFollowsProcedureAndMap : Prop :=
  (∀ k : Key, k.extractLsb' 36 3 ≠ 0 →
    decode k = .error .padNonZero ∧ opcodeMap.find? (fun r => k &&& r.mask = r.pattern) = none) ∧
  (∀ k : Key, k.extractLsb' 36 3 = 0 → k.getLsbD 39 = false →
    (k.extractLsb' 32 4 = 0 → decode k = .ok .rdCmd) ∧
    (k.extractLsb' 32 4 = 1 → decode k = .ok .rdStatus) ∧
    (k.extractLsb' 32 4 = 2 → decode k = .ok .rdDinB) ∧
    (k.extractLsb' 32 4 = 3 → decode k = .ok .rdDinW) ∧
    (k.extractLsb' 32 4 = 4 → decode k = .ok .rdCrcRx) ∧
    (k.extractLsb' 32 4 = 5 → decode k = .ok .rdCrcOut) ∧
    (k.extractLsb' 32 4 = 6 → decode k = .ok .rdCount) ∧
    (k.extractLsb' 32 4 = 7 → decode k = .ok .rdTag) ∧
    (8 ≤ k.extractLsb' 32 4 → decode k = .ok (.rdRsv (k.extractLsb' 32 4)))) ∧
  (∀ k : Key, k.extractLsb' 36 3 = 0 → k.getLsbD 39 = true → k.extractLsb' 32 4 = 0 →
    (k.extractLsb' 0 32 = 0 → decode k = .ok .nop) ∧
    (k.extractLsb' 0 32 = 1 → decode k = .ok .startGen) ∧
    (k.extractLsb' 0 32 = 2 → decode k = .ok .startChk) ∧
    (k.extractLsb' 0 32 = 3 → decode k = .ok .finish) ∧
    (k.extractLsb' 0 32 = 4 → decode k = .ok .abort) ∧
    (5 ≤ k.extractLsb' 0 32 → decode k = .ok (.cmdRsv (k.extractLsb' 0 32)))) ∧
  (∀ k : Key, k.extractLsb' 36 3 = 0 → k.getLsbD 39 = true →
    (k.extractLsb' 32 4 = 1 → decode k = .ok (.wrStatus (k.extractLsb' 0 32))) ∧
    (k.extractLsb' 32 4 = 2 → decode k = .ok (.feedb (k.extractLsb' 0 8))) ∧
    (k.extractLsb' 32 4 = 3 → decode k = .ok (.feedw (k.extractLsb' 0 32))) ∧
    (k.extractLsb' 32 4 = 4 → decode k = .ok (.setrx (k.extractLsb' 0 32))) ∧
    (k.extractLsb' 32 4 = 5 → decode k = .ok (.wrCrcOut (k.extractLsb' 0 32))) ∧
    (k.extractLsb' 32 4 = 6 → decode k = .ok (.wrCount (k.extractLsb' 0 32))) ∧
    (k.extractLsb' 32 4 = 7 → decode k = .ok (.wrTag (k.extractLsb' 0 32))) ∧
    (8 ≤ k.extractLsb' 32 4 → decode k = .ok (.wrRsv (k.extractLsb' 32 4) (k.extractLsb' 0 32)))) ∧
  (∀ (k : Key) (i : Instr), decode k = .ok i →
    (opcodeMap.find? (fun r => k &&& r.mask = r.pattern)).map (·.mnemonic) = some i.mnemonic)

/-- R94's last words: CMD.RSV overlaps the five exact CMD rows, and no other two rows share a key. -/
def Obligations.OnlyReservedCommandRowOverlaps : Prop :=
  ∀ (k : Key) (r r' : OpcodeRow), r ∈ opcodeMap → r' ∈ opcodeMap → r ≠ r' →
    k &&& r.mask = r.pattern → k &&& r'.mask = r'.pattern →
    r ∈ commandRows ∧ r' ∈ commandRows ∧ (r.mnemonic = "CMD.RSV" ∨ r'.mnemonic = "CMD.RSV")

/-- Keys written out from R91 and R94 decode to the instructions they stand for. -/
def Obligations.WrittenOutKeysDecode : Prop :=
  decode 0x8000000001 = .ok .startGen ∧
  decode 0x8000000003 = .ok .finish ∧
  decode 0x8000000009 = .ok (.cmdRsv 9) ∧
  decode 0x8352755374 = .ok (.feedw 0x52755374) ∧
  decode 0x8200001234 = .ok (.feedb 0x34) ∧
  decode 0x84ABD1D84E = .ok (.setrx 0xABD1D84E) ∧
  decode 0x0500000000 = .ok .rdCrcOut ∧
  decode 0x8CFFFFFFFF = .ok (.wrRsv 12 0xFFFFFFFF) ∧
  decode 0x9000000000 = .error .padNonZero

/-- Assembling what a disassembler prints gives the instruction back (the forms of R97). -/
def Obligations.AssembleInvertsDisassemble : Prop :=
  ∀ i : Instr, i.WellFormed → assemble i.mnemonic (instrOperands i) = some i

/-- From R98: `CMD v` is the one CMD-slot row it meets, and `FEED bytes` is words and then 0 to 3 single bytes, offers
exactly its bytes, in order, and leaves what feeding them one by one leaves. -/
def Obligations.PseudoFeedOffersExactlyItsBytes : Prop :=
  (∀ v : Word, pseudoCmd v = (decode (Key.mk true 0 v)).toOption.toList) ∧
  (∀ bytes : List Byte, (pseudoFeed bytes).flatMap feedBytes = bytes ∧
    (∀ i ∈ pseudoFeed bytes, isFeed i = true) ∧
    ∃ (words : List Word) (singles : List Byte),
      pseudoFeed bytes = words.map .feedw ++ singles.map .feedb ∧
      words.length = bytes.length / 4 ∧ singles.length = bytes.length % 4) ∧
  (∀ (bytes : List Byte) (s : State), execAll (pseudoFeed bytes) s = execAll (bytes.map .feedb) s)

/-! ## 10_state.md: state and registers -/

/-- R51: the reset event's values; every readable register then reads 0. -/
def Obligations.ResetEventWritesResetValues : Prop :=
  (∀ (s : State) (rest : List HostEvent), s.script = .reset :: rest → (∀ e ∈ rest, e.Admissible) →
    ∃ t, step s = .next t ∧
      t.block =
        { state := .idle, mode := .gen, tagcnt := 0, tagb := ⟨0, 0, 0, 0⟩, acc := 0xFFFFFFFF, count := 0,
          crcRx := 0, ovf := false, cmderr := false, seqerr := false, result := .none }) ∧
  (∀ (s t : State) (r : Reg), s.NextResets → step s = .next t → t.block.readReg r = 0) ∧
  (∀ r : Reg, State.reset.block.readReg r = 0)

/-- The invariant holds after reset. -/
def Obligations.ResetStateMeetsReachableRules : Prop := State.reset.Inv

/-- R37, which the spec marks "[derived: from rules R51, R122, R123, R126, R129 and R150]", with R33: every step keeps
the invariants of the reachable states. -/
def Obligations.StepKeepsReachableRules : Prop :=
  ∀ s t : State, s.Inv → step s = .next t → t.Inv

/-- Every state a run can come to meets the invariants, whatever the script. -/
def Obligations.RunsStayWithinReachableRules : Prop :=
  ∀ (script : List HostEvent) (n : Nat) (t : State),
    Host.Core.run Sys2Proof.core n { State.reset with script := script } = .next t → t.Inv

/-- R31, which the spec marks "[derived: from rule R15, rule R16 and rule R150]": after START, ACC is the fold over the
bytes absorbed since, so CRC_OUT is their CRC. The bytes absorbed are all bytes offered until COUNT is at its
maximum. -/
def Obligations.AccumulatorFoldsAbsorbedBytes : Prop :=
  ∀ (start : Instr) (feeds : List Instr) (s : State), start = .startGen ∨ start = .startChk →
    (∀ i ∈ feeds, isFeed i = true) →
    ∃ t, execAll (start :: feeds) s = .next t ∧
      t.block.acc = ((feeds.flatMap feedBytes).take (4 + 0xFFFFFFFF)).foldl crcByte 0xFFFFFFFF ∧
      t.block.crcOut = crc32 ((feeds.flatMap feedBytes).take (4 + 0xFFFFFFFF))

/-- R32: COUNT is the number of data bytes absorbed since START; it stops at 0xFFFFFFFF and a further byte sets
OVF. -/
def Obligations.CountIsNumberOfDataBytesSaturating : Prop :=
  ∀ (start : Instr) (feeds : List Instr) (s : State), start = .startGen ∨ start = .startChk →
    (∀ i ∈ feeds, isFeed i = true) →
    ∃ t, execAll (start :: feeds) s = .next t ∧
      t.block.count.toNat = min ((feeds.flatMap feedBytes).length - 4) 0xFFFFFFFF ∧
      (t.block.ovf = true ↔ 0xFFFFFFFF < (feeds.flatMap feedBytes).length - 4)

/-- R33: TAGB[i] is the i-th byte absorbed after START, and 0x00 where none is absorbed yet. -/
def Obligations.TagHoldsFirstFourBytes : Prop :=
  ∀ (start : Instr) (feeds : List Instr) (s : State), start = .startGen ∨ start = .startChk →
    (∀ i ∈ feeds, isFeed i = true) →
    ∃ t, execAll (start :: feeds) s = .next t ∧
      t.block.tagcnt.toNat = min (feeds.flatMap feedBytes).length 4 ∧
      ∀ n, n < 4 → t.block.tagb.bytes[n]? = some ((feeds.flatMap feedBytes)[n]?.getD 0)

/-- R34: only SETRX and reset change CRC_RX, and the received field is read big-endian. -/
def Obligations.OnlySetrxAndResetChangeCrcRx : Prop :=
  (∀ s t : State, step s = .next t → t.block.crcRx ≠ s.block.crcRx →
    (∃ v, s.NextRuns (.setrx v) ∧ t.block.crcRx = v) ∨ (s.NextResets ∧ t.block.crcRx = 0)) ∧
  (∀ c0 c1 c2 c3 : Byte,
    (fieldValue c0 c1 c2 c3).toNat =
      c0.toNat * 2 ^ 24 + c1.toNat * 2 ^ 16 + c2.toNat * 2 ^ 8 + c3.toNat)

/-- R35: which steps set each sticky flag, and that only START, ABORT and reset clear one. -/
def Obligations.StickyFlagsSetAndClearedOnlyByTheirRules : Prop :=
  (∀ s t : State, step s = .next t →
    (s.block.ovf = false → t.block.ovf = true → ∃ i, s.NextRuns i ∧ isFeed i = true) ∧
    (s.block.seqerr = false → t.block.seqerr = true → ∃ i, s.NextRuns i ∧ (isFeed i = true ∨ i = .finish)) ∧
    (s.block.cmderr = false → t.block.cmderr = true → ∃ v, s.NextRuns (.cmdRsv v)) ∧
    (s.block.ovf = true ∧ t.block.ovf = false ∨ s.block.seqerr = true ∧ t.block.seqerr = false ∨
        s.block.cmderr = true ∧ t.block.cmderr = false →
      s.NextResets ∨ ∃ i, s.NextRuns i ∧ isRestart i)) ∧
  (∀ s t : State, step s = .next t → (s.NextResets ∨ ∃ i, s.NextRuns i ∧ isRestart i) →
    t.block.ovf = false ∧ t.block.seqerr = false ∧ t.block.cmderr = false)

/-- The only transitions the sequencer takes (read off R36, R122, R123, R126, R129, R150 and R230 together). -/
def Obligations.SequencerTakesOnlyItsTransitions : Prop :=
  ∀ s t : State, step s = .next t → t.block.state ≠ s.block.state →
    (t.block.state = .idle ∧ (s.NextResets ∨ s.NextRuns .abort)) ∨
    (t.block.state = .tag ∧ (s.NextRuns .startGen ∨ s.NextRuns .startChk)) ∨
    (t.block.state = .data ∧ s.block.state = .tag ∧ t.block.tagcnt = 4 ∧ ∃ i, s.NextRuns i ∧ isFeed i = true) ∨
    (t.block.state = .done ∧ (s.block.state = .tag ∨ s.block.state = .data) ∧ s.NextRuns .finish)

/-- D21: RESULT changes only at FINISH, START, ABORT or reset. -/
def Obligations.ResultChangesOnlyAtFinishOrRestart : Prop :=
  ∀ s t : State, step s = .next t → t.block.result ≠ s.block.result →
    s.NextRuns .finish ∨ s.NextResets ∨ ∃ i, s.NextRuns i ∧ isRestart i

/-- R40, R172: every field of the value a read of STATUS returns, that no field is writable, and R172's two examples. -/
def Obligations.StatusWordHasItsFields : Prop :=
  (∀ x : Word, decode (Key.mk false 1 x) = .ok .rdStatus) ∧
  State.reset.block.status = 0 ∧
  (∃ t, execAll
      ([.startChk, .setrx 0xABD1D84E] ++
        pseudoFeed [0x52, 0x75, 0x53, 0x74, 0x54, 0x68, 0x69, 0x73, 0x20, 0x69, 0x73, 0x20, 0x77, 0x68, 0x65, 0x72,
          0x65, 0x20, 0x79, 0x6F, 0x75, 0x72, 0x20, 0x73, 0x65, 0x63, 0x72, 0x65, 0x74, 0x20, 0x6D, 0x65, 0x73, 0x73,
          0x61, 0x67, 0x65, 0x20, 0x77, 0x69, 0x6C, 0x6C, 0x20, 0x62, 0x65, 0x21] ++
        [.finish, .rdStatus]) State.reset = .next t ∧ t.reads = [0x003B0227]) ∧
  ∀ s : State, exec .rdStatus s = .next { s with reads := s.reads ++ [s.block.status] } ∧
    (∀ x : Word, exec (.wrStatus x) s = .next s) ∧
    s.block.status.extractLsb' 0 2 =
      (match s.block.state with | .idle => 0 | .tag => 1 | .data => 2 | .done => 3) ∧
    s.block.status.getLsbD 2 = decide (s.block.mode = .chk) ∧
    s.block.status.extractLsb' 3 3 = s.block.tagcnt ∧
    s.block.status.getLsbD 6 = s.block.ovf ∧
    s.block.status.getLsbD 7 = s.block.cmderr ∧
    s.block.status.getLsbD 8 = s.block.seqerr ∧
    s.block.status.extractLsb' 9 3 =
      (match s.block.result with
        | .none => 0 | .ok => 1 | .shortTag => 2 | .lenOverflow => 3 | .badTag => 4 | .crcMismatch => 5) ∧
    s.block.status.extractLsb' 12 4 = 0 ∧
    s.block.status.getLsbD 16 = s.block.tagFlag tagAlpha ∧
    s.block.status.getLsbD 17 = s.block.tagFlag tagCritical ∧
    s.block.status.getLsbD 18 = s.block.tagFlag tagPublic ∧
    s.block.status.getLsbD 19 = s.block.tagFlag tagReservedOk ∧
    s.block.status.getLsbD 20 = s.block.tagFlag tagSafeToCopy ∧
    s.block.status.getLsbD 21 = s.block.tagFlag tagValid ∧
    s.block.status.extractLsb' 22 10 = 0

/-- R41: the tag flags read 0 before the fourth tag byte and are the tag properties from then on. -/
def Obligations.TagFlagsWaitForWholeTag : Prop :=
  ∀ (b : Block),
    (b.tagcnt < 4 → b.status.extractLsb' 16 6 = 0) ∧
    (b.tagcnt = 4 →
      b.status.extractLsb' 16 6 =
        BitVec.ofBool (tagValid b.tagb) ++ BitVec.ofBool (tagSafeToCopy b.tagb) ++
          BitVec.ofBool (tagReservedOk b.tagb) ++ BitVec.ofBool (tagPublic b.tagb) ++
          BitVec.ofBool (tagCritical b.tagb) ++ BitVec.ofBool (tagAlpha b.tagb))

/-! ## 20_memory.md: access -/

/-- R71, which the spec marks "[derived: from rules R121 to R131, R150 and R170]": reads have no side effects, and
which writes may be repeated without effect. -/
def Obligations.ReadsHaveNoSideEffectsAndRepeatedWrites : Prop :=
  (∀ (i : Instr) (r : Reg) (s : State), i.WellFormed → readTarget i = some r →
    ∃ v t u, exec i s = .next t ∧ t.block = s.block ∧ t.reads = s.reads ++ [v] ∧
      exec i t = .next u ∧ u.block = s.block ∧ u.reads = s.reads ++ [v, v]) ∧
  (∀ (n : Slot) (x : Word) (s : State),
    exec (.wrStatus x) s = .next s ∧ exec (.wrCrcOut x) s = .next s ∧ exec (.wrCount x) s = .next s ∧
    exec (.wrTag x) s = .next s ∧ (8 ≤ n → exec (.wrRsv n x) s = .next s)) ∧
  (∀ (i : Instr) (s t : State), i.WellFormed → readTarget i = none → isFeed i = false → i ≠ .finish →
    exec i s = .next t → exec i t = .next t) ∧
  (∀ s t : State, exec .finish s = .next t → ∃ u, exec .finish t = .next u ∧ u.block.seqerr = true) ∧
  (∃ s t : State, exec .finish s = .next t ∧ exec .finish t ≠ .next t) ∧
  (∃ (x : Byte) (s t : State), exec (.feedb x) s = .next t ∧ exec (.feedb x) t ≠ .next t) ∧
  (∃ (w : Word) (s t : State), exec (.feedw w) s = .next t ∧ exec (.feedw w) t ≠ .next t)

/-- R74: the wire fields carry COUNT and CRC_OUT most significant byte first, and reading them back gives the
numbers. -/
def Obligations.WireFieldsAreBigEndian : Prop :=
  (∀ b : Block, b.lengthField =
    [b.count.extractLsb' 24 8, b.count.extractLsb' 16 8, b.count.extractLsb' 8 8, b.count.extractLsb' 0 8]) ∧
  (∀ b : Block, b.crcField =
    [b.crcOut.extractLsb' 24 8, b.crcOut.extractLsb' 16 8, b.crcOut.extractLsb' 8 8, b.crcOut.extractLsb' 0 8]) ∧
  (∀ w : Word,
    fieldValue (w.extractLsb' 24 8) (w.extractLsb' 16 8) (w.extractLsb' 8 8) (w.extractLsb' 0 8) = w) ∧
  (∀ c0 c1 c2 c3 : Byte, wordBytes (fieldValue c0 c1 c2 c3) = [c0, c1, c2, c3]) ∧
  wordBytes 2882656334 = [0xAB, 0xD1, 0xD8, 0x4E]

/-- Each transaction has the effect its register slot gives it: the key-level machine is the BusWrite and BusRead of
the register map (R8, R38, R77). The script that holds the key, and the premise that the rest of it is admissible, are
the model's: log entries 1 and 3. -/
def Obligations.KeysActAsBusTransactions : Prop :=
  ∀ (s : State) (k : Key) (rest : List HostEvent), s.script = .txn k :: rest → (∀ e ∈ rest, e.Admissible) →
    k.pad = 0 →
    (k.we = true → step s = .next (busWrite k.waddr k.wdata { s with script := rest })) ∧
    (k.we = false → step s = .next (busRead k.waddr { s with script := rest }).2)

/-! ## 40_commands.md -/

/-- R121: NOP is key 0x8000000000 and leaves every state unchanged. -/
def Obligations.NopChangesNothing : Prop :=
  decode 0x8000000000 = .ok .nop ∧
  (∀ s : State, exec .nop s = .next s) ∧
  (∃ t, exec .nop State.reset = .next t ∧ t.block.status = 0)

/-- R122: START.GEN writes every element but CRC_RX; issued twice it gives the same state as once. -/
def Obligations.StartGenBeginsGenerate : Prop :=
  decode 0x8000000001 = .ok .startGen ∧
  (∀ s : State, exec .startGen s = .next
    { s with block :=
      { state := .tag, mode := .gen, tagcnt := 0, tagb := ⟨0, 0, 0, 0⟩, acc := 0xFFFFFFFF, count := 0,
        crcRx := s.block.crcRx, ovf := false, cmderr := false, seqerr := false, result := .none } }) ∧
  (∀ s t : State, exec .startGen s = .next t →
    exec .startGen t = .next t ∧ t.block.status = 0x00000001 ∧ t.block.crcOut = 0)

/-- R123: START.CHK does the same with MODE = CHK. -/
def Obligations.StartChkBeginsValidate : Prop :=
  decode 0x8000000002 = .ok .startChk ∧
  (∀ s : State, exec .startChk s = .next
    { s with block :=
      { state := .tag, mode := .chk, tagcnt := 0, tagb := ⟨0, 0, 0, 0⟩, acc := 0xFFFFFFFF, count := 0,
        crcRx := s.block.crcRx, ovf := false, cmderr := false, seqerr := false, result := .none } }) ∧
  (∀ s t : State, exec .startChk s = .next t →
    exec .startChk t = .next t ∧ t.block.status = 0x00000005 ∧ t.block.crcOut = 0)

/-- R124: the verdict, the first test that holds deciding. -/
def Obligations.VerdictIsFirstFailingTest : Prop :=
  ∀ b : Block,
    (b.tagcnt < 4 → b.finishResult = .shortTag) ∧
    (¬ b.tagcnt < 4 → b.ovf = true → b.finishResult = .lenOverflow) ∧
    (¬ b.tagcnt < 4 → b.ovf = false → tagAlpha b.tagb = false → b.finishResult = .badTag) ∧
    (¬ b.tagcnt < 4 → b.ovf = false → tagAlpha b.tagb = true → b.mode = .chk → crcFinal b.acc ≠ b.crcRx →
      b.finishResult = .crcMismatch) ∧
    (¬ b.tagcnt < 4 → b.ovf = false → tagAlpha b.tagb = true → (b.mode = .gen ∨ crcFinal b.acc = b.crcRx) →
      b.finishResult = .ok)

/-- R126: FINISH records its verdict in TAG and DATA, and sets SEQERR only in IDLE and DONE. -/
def Obligations.FinishRecordsVerdictOrSequenceError : Prop :=
  decode 0x8000000003 = .ok .finish ∧
  (∀ s : State, s.block.state = .tag ∨ s.block.state = .data →
    exec .finish s = .next { s with block := { s.block with result := s.block.finishResult, state := .done } }) ∧
  (∀ s : State, s.block.state = .idle ∨ s.block.state = .done →
    exec .finish s = .next { s with block := { s.block with seqerr := true } }) ∧
  (∀ s t : State, s.Inv → s.block.state = .tag → exec .finish s = .next t → t.block.result = .shortTag) ∧
  (∀ s t : State, s.Inv → s.block.state = .data → s.block.count = 0 → exec .finish s = .next t →
    (t.block.result = .ok ↔
      tagAlpha s.block.tagb = true ∧ (s.block.mode = .chk → s.block.crcOut = s.block.crcRx))) ∧
  (∀ b : Block, b.mode = .gen → b.finishResult ≠ .crcMismatch) ∧
  (∀ (s t : State) (v : Word), exec (.setrx v) s = .next t → t.block.result = s.block.result) ∧
  (∃ t, execAll [.startGen, .feedw 0x49454E44, .finish] State.reset = .next t ∧ t.block.status = 0x002F0223 ∧
    t.block.crcOut = 0xAE426082)

/-- R129: ABORT leaves the reset state of the block with CRC_RX kept. -/
def Obligations.AbortResetsAllButCrcRx : Prop :=
  decode 0x8000000004 = .ok .abort ∧
  (∀ s : State, exec .abort s = .next
    { s with block :=
      { state := .idle, mode := .gen, tagcnt := 0, tagb := ⟨0, 0, 0, 0⟩, acc := 0xFFFFFFFF, count := 0,
        crcRx := s.block.crcRx, ovf := false, cmderr := false, seqerr := false, result := .none } }) ∧
  (∀ s t : State, exec .abort s = .next t →
    t.block = { Block.reset with crcRx := s.block.crcRx } ∧ t.block.status = 0 ∧ t.block.crcOut = 0)

/-- R131: a reserved command, of any value not in 0..4, sets CMDERR and nothing else, and a computation that goes on to
FINISH, through any instructions but START and ABORT, ends as it would have without it, but for CMDERR. -/
def Obligations.ReservedCommandSetsOnlyCmdErr : Prop :=
  (∀ v : Word, 5 ≤ v → decode (Key.mk true 0 v) = .ok (.cmdRsv v)) ∧
  (∀ (v : Word) (s : State), 5 ≤ v →
    exec (.cmdRsv v) s = .next { s with block := { s.block with cmderr := true } }) ∧
  (∀ (v : Word) (between : List Instr) (s : State), 5 ≤ v → (∀ i ∈ between, i.WellFormed ∧ ¬ isRestart i) →
    ∃ t u, execAll (.cmdRsv v :: (between ++ [.finish])) s = .next t ∧ execAll (between ++ [.finish]) s = .next u ∧
      t.block.result = u.block.result ∧ t.block = { u.block with cmderr := true }) ∧
  (∃ t, exec (.cmdRsv 5) State.reset = .next t ∧ t.block.status = 0x00000080)

/-- Every CMD write is accepted in every state, decodes by WDATA alone, and keeps CRC_RX (from R120). -/
def Obligations.CommandsAcceptedEverywhereKeepCrcRx : Prop :=
  ∀ (w : Word) (s : State), ∃ i t, decode (Key.mk true 0 w) = .ok i ∧ exec i s = .next t ∧
    t.block.crcRx = s.block.crcRx ∧ t.reads = s.reads ∧ t.script = s.script

/-! ## 41_data_feed.md -/

/-- R150, R155: FEEDB hands WDATA[7:0] to absorb, arm by arm. In TAG the premise TAGCNT < 4 is R37 item 2, kept by
every step (StepKeepsReachableRules); what the model does outside it is log entry 5. -/
def Obligations.FeedbAbsorbsOneByte : Prop :=
  (∀ (w : Word), decode (Key.mk true 2 w) = .ok (.feedb (w.extractLsb' 0 8))) ∧
  (∀ (x : Byte) (s : State), s.block.state = .idle ∨ s.block.state = .done →
    exec (.feedb x) s = .next { s with block := { s.block with seqerr := true } }) ∧
  (∀ (x : Byte) (s : State), s.block.state = .tag → s.block.tagcnt < 4 →
    ∃ tag : Tag, tag.bytes = s.block.tagb.bytes.set s.block.tagcnt.toNat x ∧
      exec (.feedb x) s = .next
        { s with block :=
          { s.block with
            tagb := tag
            acc := crcByte s.block.acc x
            tagcnt := s.block.tagcnt + 1
            state := if s.block.tagcnt + 1 = 4 then .data else .tag } }) ∧
  (∀ (x : Byte) (s : State), s.block.state = .data → s.block.count = 0xFFFFFFFF →
    exec (.feedb x) s = .next { s with block := { s.block with ovf := true } }) ∧
  (∀ (x : Byte) (s : State), s.block.state = .data → s.block.count ≠ 0xFFFFFFFF →
    exec (.feedb x) s = .next
      { s with block := { s.block with acc := crcByte s.block.acc x, count := s.block.count + 1 } }) ∧
  (∃ t, execAll [.startGen, .feedb 0x52] State.reset = .next t ∧ t.block.tagWord = 0x52000000 ∧
    t.block.status = 0x00000009 ∧ t.block.acc = 0xA89820AA ∧ t.block.crcOut = 0x5767DF55)

/-- R151, which the spec marks "[derived: from rule R150]": the corner cases of absorb, for any non-empty sequence of
feeds. -/
def Obligations.FeedsOutsideRoomSetOnlyTheirFlag : Prop :=
  (∀ (x : Byte) (s t : State), s.block.state = .tag → s.block.tagcnt = 3 → exec (.feedb x) s = .next t →
    t.block.state = .data ∧ t.block.tagcnt = 4 ∧ t.block.count = s.block.count) ∧
  (∀ (feeds : List Instr) (s : State), (∀ i ∈ feeds, isFeed i = true) → feeds ≠ [] →
    s.block.state = .data → s.block.count = 0xFFFFFFFF →
    execAll feeds s = .next { s with block := { s.block with ovf := true } }) ∧
  (∀ (feeds : List Instr) (s : State), (∀ i ∈ feeds, isFeed i = true) → feeds ≠ [] →
    s.block.state = .idle ∨ s.block.state = .done →
    execAll feeds s = .next { s with block := { s.block with seqerr := true } })

/-- R152, which the spec marks "[derived: from rule R150, rule R155 and rule R156]": any split of a byte string into
feeds leaves what feeding the bytes one at a time leaves. -/
def Obligations.FeedSplitDoesNotMatter : Prop :=
  ∀ (feeds : List Instr) (s : State), (∀ i ∈ feeds, isFeed i = true) →
    execAll feeds s = execAll ((feeds.flatMap feedBytes).map .feedb) s

/-- R156: FEEDW is four FEEDB, most significant byte first, in one transaction. -/
def Obligations.FeedwAbsorbsFourBytesInOrder : Prop :=
  (∀ w : Word, decode (Key.mk true 3 w) = .ok (.feedw w)) ∧
  (∀ (w : Word) (s : State), ∃ s1 s2 s3 s4 : State,
    exec (.feedb (w.extractLsb' 24 8)) s = .next s1 ∧
    exec (.feedb (w.extractLsb' 16 8)) s1 = .next s2 ∧
    exec (.feedb (w.extractLsb' 8 8)) s2 = .next s3 ∧
    exec (.feedb (w.extractLsb' 0 8)) s3 = .next s4 ∧
    exec (.feedw w) s = .next s4) ∧
  (∀ (w : Word) (s : State), s.block.state = .idle ∨ s.block.state = .done →
    exec (.feedw w) s = .next { s with block := { s.block with seqerr := true } }) ∧
  (∃ t, execAll [.startGen, .feedw 0x52755374] State.reset = .next t ∧ t.block.tagWord = 0x52755374 ∧
    t.block.count = 0 ∧ t.block.status = 0x003B0022 ∧ t.block.crcOut = 0xD484093C)

/-- Once the tag is complete, nothing but START, ABORT and reset changes it (R33, R151, R184). -/
def Obligations.CompleteTagIsFrozenUntilRestart : Prop :=
  ∀ s t : State, s.block.state = .data ∨ s.block.state = .done → step s = .next t →
    (s.NextResets ∨ ∃ i, s.NextRuns i ∧ isRestart i) ∨
    (t.block.tagb = s.block.tagb ∧ t.block.tagcnt = s.block.tagcnt ∧ t.block.mode = s.block.mode ∧
      s.block.count ≤ t.block.count)

/-! ## 42_register_access.md -/

/-- R170, R174: SETRX writes CRC_RX and nothing else, the value reads back, GEN mode never reads it, and CHK mode
compares with the value it holds at FINISH. -/
def Obligations.SetrxWritesAndReadsBack : Prop :=
  (∀ v : Word, decode (Key.mk true 4 v) = .ok (.setrx v) ∧ decode (Key.mk false 4 v) = .ok .rdCrcRx) ∧
  (∀ (v : Word) (s : State),
    exec (.setrx v) s = .next { s with block := { s.block with crcRx := v } } ∧
    execAll [.setrx v, .rdCrcRx] s =
      .next { s with block := { s.block with crcRx := v }, reads := s.reads ++ [v] }) ∧
  (∀ s : State, exec .rdCrcRx s = .next { s with reads := s.reads ++ [s.block.crcRx] }) ∧
  State.reset.block.crcRx = 0 ∧
  (∀ (v : Word) (b : Block), b.mode = .gen → Block.finishResult { b with crcRx := v } = b.finishResult) ∧
  (∀ b : Block, b.mode = .chk → ¬ b.tagcnt < 4 → b.ovf = false → tagAlpha b.tagb = true →
    (b.finishResult = .crcMismatch ↔ b.crcOut ≠ b.crcRx))

/-- In GEN mode the block never reads CRC_RX: two runs that differ only in CRC_RX return the same values and stay
equal but for it (R170, R124). Where the lists hold ill-formed terms, their meaning is the model's choice: log entry
12. -/
def Obligations.GenerateModeIgnoresCrcRx : Prop :=
  ∀ (instrs : List Instr) (s : State) (v : Word), s.block.mode = .gen →
    (∀ i ∈ instrs, i ≠ .startChk ∧ i ≠ .rdCrcRx) →
    ∃ t u, execAll instrs s = .next t ∧
      execAll instrs { s with block := { s.block with crcRx := v } } = .next u ∧
      u.reads = t.reads ∧ u.block = { t.block with crcRx := u.block.crcRx }

/-- R171, R173 to R179: the key of each read, whatever its WDATA, and what it returns; it changes nothing else. The last
clauses are the corner cases and examples of R176, R177 and R178. -/
def Obligations.ReadsReturnTheirRegister : Prop :=
  (∀ x : Word,
    decode (Key.mk false 0 x) = .ok .rdCmd ∧ decode (Key.mk false 2 x) = .ok .rdDinB ∧
    decode (Key.mk false 3 x) = .ok .rdDinW ∧ decode (Key.mk false 4 x) = .ok .rdCrcRx ∧
    decode (Key.mk false 5 x) = .ok .rdCrcOut ∧ decode (Key.mk false 6 x) = .ok .rdCount ∧
    decode (Key.mk false 7 x) = .ok .rdTag ∧ ∀ n : Slot, 8 ≤ n → decode (Key.mk false n x) = .ok (.rdRsv n)) ∧
  (∀ (n : Slot) (s : State),
    exec .rdCmd s = .next { s with reads := s.reads ++ [0] } ∧
    exec .rdDinB s = .next { s with reads := s.reads ++ [0] } ∧
    exec .rdDinW s = .next { s with reads := s.reads ++ [0] } ∧
    exec .rdCrcRx s = .next { s with reads := s.reads ++ [s.block.crcRx] } ∧
    exec .rdCrcOut s = .next { s with reads := s.reads ++ [s.block.acc ^^^ 0xFFFFFFFF] } ∧
    exec .rdCount s = .next { s with reads := s.reads ++ [s.block.count] } ∧
    exec .rdTag s = .next
      { s with reads := s.reads ++ [s.block.tagb.t0 ++ s.block.tagb.t1 ++ s.block.tagb.t2 ++ s.block.tagb.t3] } ∧
    (8 ≤ n → exec (.rdRsv n) s = .next { s with reads := s.reads ++ [0] })) ∧
  (∀ (start : Instr) (feeds finish : List Instr) (s : State), start = .startGen ∨ start = .startChk →
    (∀ i ∈ feeds, isFeed i = true) → finish = [] ∨ finish = [.finish] →
    ∃ t, execAll (start :: (feeds ++ finish ++ [.rdCrcOut])) s = .next t ∧
      t.reads = s.reads ++ [crc32 ((feeds.flatMap feedBytes).take (4 + 0xFFFFFFFF))]) ∧
  (∀ (i : Instr) (s : State), isRestart i →
    ∃ t, execAll [i, .rdCrcOut] s = .next t ∧ t.reads = s.reads ++ [0]) ∧
  (∃ t, execAll [.rdCrcRx, .rdCrcOut] State.reset = .next t ∧ t.reads = [0, 0]) ∧
  (∀ b : Block, b.lengthField = wordBytes (b.readReg .count) ∧ b.crcField = wordBytes (b.readReg .crcOut)) ∧
  (∃ t, execAll
      (pseudoGen [0x52, 0x75, 0x53, 0x74] [0x54, 0x68, 0x69, 0x73, 0x20, 0x69, 0x73, 0x20, 0x77, 0x68, 0x65, 0x72, 0x65,
        0x20, 0x79, 0x6F, 0x75, 0x72, 0x20, 0x73, 0x65, 0x63, 0x72, 0x65, 0x74, 0x20, 0x6D, 0x65, 0x73, 0x73, 0x61,
        0x67, 0x65, 0x20, 0x77, 0x69, 0x6C, 0x6C, 0x20, 0x62, 0x65, 0x21]) State.reset = .next t ∧
      t.reads = [0x003B0223, 0xABD1D84E, 42]) ∧
  (∀ start : Instr, start = .startGen ∨ start = .startChk →
    (∃ t, execAll [start, .feedb 0x52, .rdTag] State.reset = .next t ∧ t.reads = [0x52000000]) ∧
    (∃ t, execAll [start, .feedw 0x52755374, .rdTag] State.reset = .next t ∧ t.reads = [0x52755374]))

/-- R180 to R185: the keys of the writes of a read-only or reserved slot; they change nothing, whatever their data. -/
def Obligations.IgnoredWritesChangeNothing : Prop :=
  (∀ x : Word,
    decode (Key.mk true 1 x) = .ok (.wrStatus x) ∧ decode (Key.mk true 5 x) = .ok (.wrCrcOut x) ∧
    decode (Key.mk true 6 x) = .ok (.wrCount x) ∧ decode (Key.mk true 7 x) = .ok (.wrTag x) ∧
    ∀ n : Slot, 8 ≤ n → decode (Key.mk true n x) = .ok (.wrRsv n x)) ∧
  ∀ (n : Slot) (x : Word) (s : State),
    exec (.wrStatus x) s = .next s ∧ exec (.wrCrcOut x) s = .next s ∧ exec (.wrCount x) s = .next s ∧
    exec (.wrTag x) s = .next s ∧ (8 ≤ n → exec (.wrRsv n x) s = .next s)

/-! ## 60_exceptions.md -/

/-- No error stops the block: every instruction completes in every state (from R200 and R236). That the port completes
every transaction is the fairness premise of R250, log entry 6; the meaning of an ill-formed term is the model's choice,
log entry 12. -/
def Obligations.EveryTransactionCompletesInEveryState : Prop :=
  ∀ (i : Instr) (s : State), ∃ t, exec i s = .next t ∧ t.script = s.script ∧ s.reads <+: t.reads

/-- One transaction sets at most one kind of flag (from R203). The meaning of an ill-formed term is the model's choice:
log entry 12. -/
def Obligations.OneTransactionSetsOneKindOfFlag : Prop :=
  ∀ (i : Instr) (s t : State), exec i s = .next t →
    (s.block.ovf = false ∧ t.block.ovf = true →
      t.block.seqerr = s.block.seqerr ∧ t.block.cmderr = s.block.cmderr ∧ t.block.result = s.block.result) ∧
    (s.block.seqerr = false ∧ t.block.seqerr = true →
      t.block.ovf = s.block.ovf ∧ t.block.cmderr = s.block.cmderr ∧ t.block.result = s.block.result) ∧
    (s.block.cmderr = false ∧ t.block.cmderr = true →
      t.block.ovf = s.block.ovf ∧ t.block.seqerr = s.block.seqerr ∧ t.block.result = s.block.result)

/-- The verdict of a whole computation, for every byte string and every split of it into feeds (R31, R32, R124, R126,
R201). -/
def Obligations.WholeStreamVerdict : Prop :=
  ∀ (start : Instr) (feeds : List Instr) (s : State), start = .startGen ∨ start = .startChk →
    (∀ i ∈ feeds, isFeed i = true) →
    ∃ t, execAll (start :: (feeds ++ [.finish])) s = .next t ∧ t.block.state = .done ∧
      ∀ bytes, bytes = feeds.flatMap feedBytes →
        (bytes.length < 4 → t.block.result = .shortTag) ∧
        (4 + 0xFFFFFFFF < bytes.length → t.block.result = .lenOverflow) ∧
        (4 ≤ bytes.length → bytes.length ≤ 4 + 0xFFFFFFFF → (bytes.take 4).all isAlpha = false →
          t.block.result = .badTag) ∧
        (4 ≤ bytes.length → bytes.length ≤ 4 + 0xFFFFFFFF → (bytes.take 4).all isAlpha = true →
          start = .startChk → crc32 bytes ≠ s.block.crcRx → t.block.result = .crcMismatch) ∧
        (4 ≤ bytes.length → bytes.length ≤ 4 + 0xFFFFFFFF → (bytes.take 4).all isAlpha = true →
          (start = .startGen ∨ crc32 bytes = s.block.crcRx) → t.block.result = .ok)

/-- The host accepts a chunk exactly when its tag is alphabetic, the received CRC is the CRC of type and data, and the
declared length is the number of data bytes (R204, R245). -/
def Obligations.HostAcceptsExactlyIntactChunks : Prop :=
  ∀ (tag : Tag) (data : List Byte) (received declared : Word) (s : State),
    ∃ t, execAll (pseudoChk tag.bytes data received) s = .next t ∧
      (t.block.hostAccepts declared = true ↔
        tagAlpha tag = true ∧ received = crc32 (tag.bytes ++ data) ∧ data.length = declared.toNat)

/-- STATUS[8:7] = 00 says that no host programming error was recorded, and such an error does not change the verdict
(from R204). -/
def Obligations.HostErrorsShowInStatusNotInVerdict : Prop :=
  ∀ (b : Block) (cmd seq : Bool),
    (b.cleanRun = true ↔ b.cmderr = false ∧ b.seqerr = false) ∧
    Block.finishResult { b with cmderr := cmd, seqerr := seq } = b.finishResult

/-- Generating a chunk returns its CRC and its length for every tag and every payload that fits (R98, R176, R177,
R245). -/
def Obligations.GenerateReturnsCrcAndLength : Prop :=
  ∀ (tag : Tag) (data : List Byte) (s : State), data.length ≤ 0xFFFFFFFF →
    ∃ t, execAll (pseudoGen tag.bytes data) s = .next t ∧
      t.reads = s.reads ++ [t.block.status, crc32 (tag.bytes ++ data), BitVec.ofNat 32 data.length] ∧
      t.block.tagb = tag ∧ t.block.result = (if tagAlpha tag then .ok else .badTag)

/-- R218, which the spec marks "[derived: from `10_state.md` rules R40 to R47]": the readable registers determine every
stored element. -/
def Obligations.RegistersRevealWholeState : Prop :=
  ∀ b c : Block, (∀ r : Reg, b.readReg r = c.readReg r) → b = c

/-! ## 70_reset_and_hazards.md -/

/-- A step runs the instruction the next key decodes to, on the machine with that event taken off the script. The
script is the model's: log entries 1 and 3. -/
def Obligations.StepRunsDecodedTransaction : Prop :=
  ∀ (s : State) (k : Key) (i : Instr) (rest : List HostEvent), s.script = .txn k :: rest →
    decode k = .ok i → (∀ e ∈ rest, e.Admissible) → step s = exec i { s with script := rest }

/-- From R236: a state has a step exactly when its script has a next event and every event of it has a step; a script
that contains a refused key or a cut-off transaction is refused as a whole. That the refusal comes at the script's first
step, and that a script with nothing left is refused by name, are the model's readings: log entries 3 and 4. -/
def Obligations.StepsExistExactlyForAdmissibleScripts : Prop :=
  (∀ s : State, (∃ t, step s = .next t) ↔ s.script ≠ [] ∧ ∀ e ∈ s.script, e.Admissible) ∧
  (∀ s : State, s.script = [] → step s = .refused .scriptEnded) ∧
  (∀ s : State, (∃ e ∈ s.script, ¬ e.Admissible) →
    step s = .refused .notATransaction ∨ step s = .refused .cutOffTransaction) ∧
  (∀ k : Key, (HostEvent.txn k).Admissible ↔ k.extractLsb' 36 3 = 0) ∧
  (∀ k : Key, ¬ (HostEvent.cutOff k).Admissible) ∧ HostEvent.reset.Admissible

/-- R243: results are kept until the next START, ABORT or reset, each of which discards them. -/
def Obligations.ResultsKeptUntilRestart : Prop :=
  (∀ s t : State, s.block.state = .done → step s = .next t →
    (¬ s.NextResets ∧ ¬ ∃ i, s.NextRuns i ∧ isRestart i) →
    t.block.state = .done ∧ t.block.result = s.block.result ∧ t.block.crcOut = s.block.crcOut ∧
      t.block.count = s.block.count ∧ t.block.tagWord = s.block.tagWord) ∧
  (∀ s t : State, step s = .next t → (s.NextResets ∨ ∃ i, s.NextRuns i ∧ isRestart i) →
    t.block.result = .none ∧ t.block.crcOut = 0 ∧ t.block.count = 0 ∧ t.block.tagWord = 0)
end

