-- ==== Sys2Proof/Laws/Codec.lean ====
section
/-! SUPPORT. The fields of an assembled key, and a key from its fields (R91). -/

namespace Sys2Proof

@[simp] theorem Key.mk_we (we : Bool) (n : Slot) (w : Word) : (Key.mk we n w).we = we := by
  simp only [Key.we, Key.mk, BitVec.getLsbD_append]
  cases we <;> simp

@[simp] theorem Key.mk_pad (we : Bool) (n : Slot) (w : Word) : (Key.mk we n w).pad = 0 := by
  ext i hi
  simp only [Key.pad, Key.mk, BitVec.getElem_extractLsb', BitVec.getLsbD_append]
  interval_cases i <;> simp

@[simp] theorem Key.mk_waddr (we : Bool) (n : Slot) (w : Word) : (Key.mk we n w).waddr = n := by
  ext i hi
  simp only [Key.waddr, Key.mk, BitVec.getElem_extractLsb', BitVec.getLsbD_append]
  interval_cases i <;> simp [BitVec.getLsbD_eq_getElem]

@[simp] theorem Key.mk_wdata (we : Bool) (n : Slot) (w : Word) : (Key.mk we n w).wdata = w := by
  ext i hi
  simp only [Key.wdata, Key.mk, BitVec.getElem_extractLsb', BitVec.getLsbD_append]
  simp [hi]

/-- A key with PAD = 000 is the key of its fields. -/
theorem Key.eq_mk {k : Key} (h : k.pad = 0) : k = Key.mk k.we k.waddr k.wdata := by
  have hp : ∀ j, j < 3 → k.getLsbD (36 + j) = false := by
    intro j hj
    have := congrArg (fun p => p.getLsbD j) h
    simpa [Key.pad, hj] using this
  have h0 := hp 0 (by omega)
  have h1 := hp 1 (by omega)
  have h2 := hp 2 (by omega)
  apply BitVec.eq_of_getLsbD_eq
  intro i hi
  simp only [Key.mk, Key.we, Key.waddr, Key.wdata, BitVec.getLsbD_append, BitVec.getLsbD_extractLsb']
  by_cases h32 : i < 32
  · simp [h32]
  · by_cases h36 : i < 36
    · have : 32 + (i - 32) = i := by omega
      simp [h32, this, show i - 32 < 4 by omega]
    · have hcase : i = 36 ∨ i = 37 ∨ i = 38 ∨ i = 39 := by omega
      rcases hcase with rfl | rfl | rfl | rfl <;> simp_all

/-- The decoder on an assembled key. -/
@[simp] theorem decode_mk (we : Bool) (n : Slot) (w : Word) :
    decode (Key.mk we n w) = .ok (if we then decodeWrite n w else decodeRead n) := by
  cases we <;> simp [decode]

/-- The decoder answers exactly when PAD is 000 (R93). -/
theorem decode_eq_ok_iff {k : Key} {i : Instr} :
    decode k = .ok i ↔ k.pad = 0 ∧ i = (if k.we then decodeWrite k.waddr k.wdata else decodeRead k.waddr) := by
  unfold decode
  by_cases h : k.pad = 0
  · cases hw : k.we <;> simp [h, eq_comm (b := i)]
  · simp only [ne_eq, h, not_false_eq_true, if_true, false_and, reduceCtorEq]

/-- Every slot is one of the eight registers or reserved (R38). -/
theorem slot_cases (n : Slot) :
    n = 0 ∨ n = 1 ∨ n = 2 ∨ n = 3 ∨ n = 4 ∨ n = 5 ∨ n = 6 ∨ n = 7 ∨ isReservedSlot n = true := by
  revert n
  decide

/-- Every command value is one of the five commands or reserved (R39). -/
theorem command_cases (w : Word) : w = 0 ∨ w = 1 ∨ w = 2 ∨ w = 3 ∨ w = 4 ∨ isReservedCommand w = true := by
  simp only [isReservedCommand, decide_eq_true_eq]
  bv_omega

theorem isReservedSlot_ne {n : Slot} (h : isReservedSlot n = true) (c : Slot) (hc : c < 8) : n ≠ c := by
  rintro rfl
  simp only [isReservedSlot, decide_eq_true_eq] at h
  bv_omega

theorem isReservedCommand_ne {w : Word} (h : isReservedCommand w = true) (c : Word) (hc : c ≤ 4) : w ≠ c := by
  rintro rfl
  simp only [isReservedCommand, decide_eq_true_eq] at h
  bv_omega

theorem decodeCommand_reserved {w : Word} (h : isReservedCommand w = true) : decodeCommand w = .cmdRsv w := by
  rw [decodeCommand, if_neg (isReservedCommand_ne h 0 (by decide)), if_neg (isReservedCommand_ne h 1 (by decide)),
    if_neg (isReservedCommand_ne h 2 (by decide)), if_neg (isReservedCommand_ne h 3 (by decide)),
    if_neg (isReservedCommand_ne h 4 (by decide))]

theorem decodeWrite_reserved {n : Slot} (h : isReservedSlot n = true) (w : Word) : decodeWrite n w = .wrRsv n w := by
  rw [decodeWrite, if_neg (isReservedSlot_ne h 0 (by decide)), if_neg (isReservedSlot_ne h 1 (by decide)),
    if_neg (isReservedSlot_ne h 2 (by decide)), if_neg (isReservedSlot_ne h 3 (by decide)),
    if_neg (isReservedSlot_ne h 4 (by decide)), if_neg (isReservedSlot_ne h 5 (by decide)),
    if_neg (isReservedSlot_ne h 6 (by decide)), if_neg (isReservedSlot_ne h 7 (by decide))]

theorem decodeRead_reserved {n : Slot} (h : isReservedSlot n = true) : decodeRead n = .rdRsv n := by
  rw [decodeRead, if_neg (isReservedSlot_ne h 0 (by decide)), if_neg (isReservedSlot_ne h 1 (by decide)),
    if_neg (isReservedSlot_ne h 2 (by decide)), if_neg (isReservedSlot_ne h 3 (by decide)),
    if_neg (isReservedSlot_ne h 4 (by decide)), if_neg (isReservedSlot_ne h 5 (by decide)),
    if_neg (isReservedSlot_ne h 6 (by decide)), if_neg (isReservedSlot_ne h 7 (by decide))]

theorem lowByte_setWidth (b : Byte) : lowByte (b.setWidth 32) = b := by
  ext i hi
  simp only [lowByte, BitVec.getElem_extractLsb', BitVec.getLsbD_setWidth]
  simp [hi, show i < 32 by omega]

end Sys2Proof
end

