-- ==== Sys2Proof/Laws/Crc.lean ====
section
/-! SUPPORT. Small lemmas of the CRC primitives: how the fold runs over a list, and that the final XOR undoes itself. -/

namespace Sys2Proof.Machine

@[simp] theorem crcFold_nil (a : Word) : crcFold a [] = a := rfl

@[simp] theorem crcFold_cons (a : Word) (x : Byte) (m : List Byte) :
    crcFold a (x :: m) = crcFold (crcByte a x) m := rfl

theorem crcFold_append (a : Word) (m n : List Byte) : crcFold a (m ++ n) = crcFold (crcFold a m) n := by
  simp [crcFold, List.foldl_append]

theorem crcFold_concat (a : Word) (m : List Byte) (x : Byte) :
    crcFold a (m ++ [x]) = crcByte (crcFold a m) x := by
  simp [crcFold_append]

theorem crcFinal_crcFinal (a : Word) : crcFinal (crcFinal a) = a := by
  simp [crcFinal]

theorem crcFinal_injective {a a' : Word} (h : crcFinal a = crcFinal a') : a = a' := by
  rw [← crcFinal_crcFinal a, h, crcFinal_crcFinal]

end Sys2Proof.Machine
end

