-- ==== Sys2Proof/Laws/State.lean ====
section
/-! SUPPORT. Every field after every named update, by rfl: later proofs rewrite with these and never unfold a record
update. -/

namespace Sys2Proof.Machine

variable (b : Block) (v : Word) (x : Byte) (r : Result) (m : Mode) (s : State) (c : Block)

/-! ### Block.setSeqErr -/

@[simp] theorem Block.setSeqErr_state : (b.setSeqErr).state = b.state := rfl
@[simp] theorem Block.setSeqErr_mode : (b.setSeqErr).mode = b.mode := rfl
@[simp] theorem Block.setSeqErr_tagcnt : (b.setSeqErr).tagcnt = b.tagcnt := rfl
@[simp] theorem Block.setSeqErr_tagb : (b.setSeqErr).tagb = b.tagb := rfl
@[simp] theorem Block.setSeqErr_acc : (b.setSeqErr).acc = b.acc := rfl
@[simp] theorem Block.setSeqErr_count : (b.setSeqErr).count = b.count := rfl
@[simp] theorem Block.setSeqErr_crcRx : (b.setSeqErr).crcRx = b.crcRx := rfl
@[simp] theorem Block.setSeqErr_ovf : (b.setSeqErr).ovf = b.ovf := rfl
@[simp] theorem Block.setSeqErr_cmderr : (b.setSeqErr).cmderr = b.cmderr := rfl
@[simp] theorem Block.setSeqErr_seqerr : (b.setSeqErr).seqerr = true := rfl
@[simp] theorem Block.setSeqErr_result : (b.setSeqErr).result = b.result := rfl

/-! ### Block.setCmdErr -/

@[simp] theorem Block.setCmdErr_state : (b.setCmdErr).state = b.state := rfl
@[simp] theorem Block.setCmdErr_mode : (b.setCmdErr).mode = b.mode := rfl
@[simp] theorem Block.setCmdErr_tagcnt : (b.setCmdErr).tagcnt = b.tagcnt := rfl
@[simp] theorem Block.setCmdErr_tagb : (b.setCmdErr).tagb = b.tagb := rfl
@[simp] theorem Block.setCmdErr_acc : (b.setCmdErr).acc = b.acc := rfl
@[simp] theorem Block.setCmdErr_count : (b.setCmdErr).count = b.count := rfl
@[simp] theorem Block.setCmdErr_crcRx : (b.setCmdErr).crcRx = b.crcRx := rfl
@[simp] theorem Block.setCmdErr_ovf : (b.setCmdErr).ovf = b.ovf := rfl
@[simp] theorem Block.setCmdErr_cmderr : (b.setCmdErr).cmderr = true := rfl
@[simp] theorem Block.setCmdErr_seqerr : (b.setCmdErr).seqerr = b.seqerr := rfl
@[simp] theorem Block.setCmdErr_result : (b.setCmdErr).result = b.result := rfl

/-! ### Block.setOvf -/

@[simp] theorem Block.setOvf_state : (b.setOvf).state = b.state := rfl
@[simp] theorem Block.setOvf_mode : (b.setOvf).mode = b.mode := rfl
@[simp] theorem Block.setOvf_tagcnt : (b.setOvf).tagcnt = b.tagcnt := rfl
@[simp] theorem Block.setOvf_tagb : (b.setOvf).tagb = b.tagb := rfl
@[simp] theorem Block.setOvf_acc : (b.setOvf).acc = b.acc := rfl
@[simp] theorem Block.setOvf_count : (b.setOvf).count = b.count := rfl
@[simp] theorem Block.setOvf_crcRx : (b.setOvf).crcRx = b.crcRx := rfl
@[simp] theorem Block.setOvf_ovf : (b.setOvf).ovf = true := rfl
@[simp] theorem Block.setOvf_cmderr : (b.setOvf).cmderr = b.cmderr := rfl
@[simp] theorem Block.setOvf_seqerr : (b.setOvf).seqerr = b.seqerr := rfl
@[simp] theorem Block.setOvf_result : (b.setOvf).result = b.result := rfl

/-! ### Block.setCrcRx -/

@[simp] theorem Block.setCrcRx_state : (b.setCrcRx v).state = b.state := rfl
@[simp] theorem Block.setCrcRx_mode : (b.setCrcRx v).mode = b.mode := rfl
@[simp] theorem Block.setCrcRx_tagcnt : (b.setCrcRx v).tagcnt = b.tagcnt := rfl
@[simp] theorem Block.setCrcRx_tagb : (b.setCrcRx v).tagb = b.tagb := rfl
@[simp] theorem Block.setCrcRx_acc : (b.setCrcRx v).acc = b.acc := rfl
@[simp] theorem Block.setCrcRx_count : (b.setCrcRx v).count = b.count := rfl
@[simp] theorem Block.setCrcRx_crcRx : (b.setCrcRx v).crcRx = v := rfl
@[simp] theorem Block.setCrcRx_ovf : (b.setCrcRx v).ovf = b.ovf := rfl
@[simp] theorem Block.setCrcRx_cmderr : (b.setCrcRx v).cmderr = b.cmderr := rfl
@[simp] theorem Block.setCrcRx_seqerr : (b.setCrcRx v).seqerr = b.seqerr := rfl
@[simp] theorem Block.setCrcRx_result : (b.setCrcRx v).result = b.result := rfl

/-! ### Block.takeTagByte -/

@[simp] theorem Block.takeTagByte_state : (b.takeTagByte x).state = if b.tagcnt + 1 = 4 then .data else b.state := rfl
@[simp] theorem Block.takeTagByte_mode : (b.takeTagByte x).mode = b.mode := rfl
@[simp] theorem Block.takeTagByte_tagcnt : (b.takeTagByte x).tagcnt = b.tagcnt + 1 := rfl
@[simp] theorem Block.takeTagByte_tagb : (b.takeTagByte x).tagb = b.tagb.set b.tagcnt x := rfl
@[simp] theorem Block.takeTagByte_acc : (b.takeTagByte x).acc = crcByte b.acc x := rfl
@[simp] theorem Block.takeTagByte_count : (b.takeTagByte x).count = b.count := rfl
@[simp] theorem Block.takeTagByte_crcRx : (b.takeTagByte x).crcRx = b.crcRx := rfl
@[simp] theorem Block.takeTagByte_ovf : (b.takeTagByte x).ovf = b.ovf := rfl
@[simp] theorem Block.takeTagByte_cmderr : (b.takeTagByte x).cmderr = b.cmderr := rfl
@[simp] theorem Block.takeTagByte_seqerr : (b.takeTagByte x).seqerr = b.seqerr := rfl
@[simp] theorem Block.takeTagByte_result : (b.takeTagByte x).result = b.result := rfl

/-! ### Block.takeDataByte -/

@[simp] theorem Block.takeDataByte_state : (b.takeDataByte x).state = b.state := rfl
@[simp] theorem Block.takeDataByte_mode : (b.takeDataByte x).mode = b.mode := rfl
@[simp] theorem Block.takeDataByte_tagcnt : (b.takeDataByte x).tagcnt = b.tagcnt := rfl
@[simp] theorem Block.takeDataByte_tagb : (b.takeDataByte x).tagb = b.tagb := rfl
@[simp] theorem Block.takeDataByte_acc : (b.takeDataByte x).acc = crcByte b.acc x := rfl
@[simp] theorem Block.takeDataByte_count : (b.takeDataByte x).count = b.count + 1 := rfl
@[simp] theorem Block.takeDataByte_crcRx : (b.takeDataByte x).crcRx = b.crcRx := rfl
@[simp] theorem Block.takeDataByte_ovf : (b.takeDataByte x).ovf = b.ovf := rfl
@[simp] theorem Block.takeDataByte_cmderr : (b.takeDataByte x).cmderr = b.cmderr := rfl
@[simp] theorem Block.takeDataByte_seqerr : (b.takeDataByte x).seqerr = b.seqerr := rfl
@[simp] theorem Block.takeDataByte_result : (b.takeDataByte x).result = b.result := rfl

/-! ### Block.recordVerdict -/

@[simp] theorem Block.recordVerdict_state : (b.recordVerdict r).state = .done := rfl
@[simp] theorem Block.recordVerdict_mode : (b.recordVerdict r).mode = b.mode := rfl
@[simp] theorem Block.recordVerdict_tagcnt : (b.recordVerdict r).tagcnt = b.tagcnt := rfl
@[simp] theorem Block.recordVerdict_tagb : (b.recordVerdict r).tagb = b.tagb := rfl
@[simp] theorem Block.recordVerdict_acc : (b.recordVerdict r).acc = b.acc := rfl
@[simp] theorem Block.recordVerdict_count : (b.recordVerdict r).count = b.count := rfl
@[simp] theorem Block.recordVerdict_crcRx : (b.recordVerdict r).crcRx = b.crcRx := rfl
@[simp] theorem Block.recordVerdict_ovf : (b.recordVerdict r).ovf = b.ovf := rfl
@[simp] theorem Block.recordVerdict_cmderr : (b.recordVerdict r).cmderr = b.cmderr := rfl
@[simp] theorem Block.recordVerdict_seqerr : (b.recordVerdict r).seqerr = b.seqerr := rfl
@[simp] theorem Block.recordVerdict_result : (b.recordVerdict r).result = r := rfl

/-! ### Block.start -/

@[simp] theorem Block.start_state : (b.start m).state = .tag := rfl
@[simp] theorem Block.start_mode : (b.start m).mode = m := rfl
@[simp] theorem Block.start_tagcnt : (b.start m).tagcnt = 0 := rfl
@[simp] theorem Block.start_tagb : (b.start m).tagb = ⟨0, 0, 0, 0⟩ := rfl
@[simp] theorem Block.start_acc : (b.start m).acc = Config.crcInit := rfl
@[simp] theorem Block.start_count : (b.start m).count = 0 := rfl
@[simp] theorem Block.start_crcRx : (b.start m).crcRx = b.crcRx := rfl
@[simp] theorem Block.start_ovf : (b.start m).ovf = false := rfl
@[simp] theorem Block.start_cmderr : (b.start m).cmderr = false := rfl
@[simp] theorem Block.start_seqerr : (b.start m).seqerr = false := rfl
@[simp] theorem Block.start_result : (b.start m).result = .none := rfl

/-! ### Block.abort -/

@[simp] theorem Block.abort_state : (b.abort).state = .idle := rfl
@[simp] theorem Block.abort_mode : (b.abort).mode = .gen := rfl
@[simp] theorem Block.abort_tagcnt : (b.abort).tagcnt = 0 := rfl
@[simp] theorem Block.abort_tagb : (b.abort).tagb = ⟨0, 0, 0, 0⟩ := rfl
@[simp] theorem Block.abort_acc : (b.abort).acc = Config.crcInit := rfl
@[simp] theorem Block.abort_count : (b.abort).count = 0 := rfl
@[simp] theorem Block.abort_crcRx : (b.abort).crcRx = b.crcRx := rfl
@[simp] theorem Block.abort_ovf : (b.abort).ovf = false := rfl
@[simp] theorem Block.abort_cmderr : (b.abort).cmderr = false := rfl
@[simp] theorem Block.abort_seqerr : (b.abort).seqerr = false := rfl
@[simp] theorem Block.abort_result : (b.abort).result = .none := rfl

/-! ### State -/

@[simp] theorem State.setBlock_block : (s.setBlock c).block = c := rfl
@[simp] theorem State.setBlock_script : (s.setBlock c).script = s.script := rfl
@[simp] theorem State.setBlock_reads : (s.setBlock c).reads = s.reads := rfl
@[simp] theorem State.observe_block : (s.observe v).block = s.block := rfl
@[simp] theorem State.observe_script : (s.observe v).script = s.script := rfl
@[simp] theorem State.observe_reads : (s.observe v).reads = s.reads ++ [v] := rfl
@[simp] theorem takeReset_block : (takeReset s).block = Block.reset := rfl
@[simp] theorem takeReset_script : (takeReset s).script = s.script := rfl
@[simp] theorem takeReset_reads : (takeReset s).reads = s.reads := rfl
@[simp] theorem State.setBlock_setBlock (d : Block) : (s.setBlock c).setBlock d = s.setBlock d := rfl
@[simp] theorem State.setBlock_self : s.setBlock s.block = s := rfl

@[simp] theorem State.reset_block : State.reset.block = Block.reset := rfl
@[simp] theorem State.reset_script : State.reset.script = [] := rfl
@[simp] theorem State.reset_reads : State.reset.reads = [] := rfl

end Sys2Proof.Machine
end

