-- ==== Sys2Proof/Laws/Ops.lean ====
section
/-! SUPPORT. One lemma for each shared operation, saying everything it can do; provers cite these instead of unfolding
the operation. -/

namespace Sys2Proof.Machine

/-! ## absorb (R150) -/

theorem Block.absorb_idle {b : Block} (h : b.state = .idle) (x : Byte) : b.absorb x = b.setSeqErr := by
  simp [Block.absorb, h]

theorem Block.absorb_done {b : Block} (h : b.state = .done) (x : Byte) : b.absorb x = b.setSeqErr := by
  simp [Block.absorb, h]

theorem Block.absorb_tag {b : Block} (h : b.state = .tag) (x : Byte) : b.absorb x = b.takeTagByte x := by
  simp [Block.absorb, h]

theorem Block.absorb_full {b : Block} (h : b.state = .data) (hc : b.count = Config.maxCount) (x : Byte) :
    b.absorb x = b.setOvf := by
  simp [Block.absorb, h, hc]

theorem Block.absorb_data {b : Block} (h : b.state = .data) (hc : b.count ≠ Config.maxCount) (x : Byte) :
    b.absorb x = b.takeDataByte x := by
  simp [Block.absorb, h, hc]

/-- Everything absorb can do. -/
theorem Block.absorb_cases (b : Block) (x : Byte) :
    ((b.state = .idle ∨ b.state = .done) ∧ b.absorb x = b.setSeqErr) ∨
    (b.state = .tag ∧ b.absorb x = b.takeTagByte x) ∨
    (b.state = .data ∧ b.count = Config.maxCount ∧ b.absorb x = b.setOvf) ∨
    (b.state = .data ∧ b.count ≠ Config.maxCount ∧ b.absorb x = b.takeDataByte x) := by
  cases h : b.state
  · exact .inl ⟨.inl rfl, Block.absorb_idle h x⟩
  · exact .inr (.inl ⟨rfl, Block.absorb_tag h x⟩)
  · by_cases hc : b.count = Config.maxCount
    · exact .inr (.inr (.inl ⟨rfl, hc, Block.absorb_full h hc x⟩))
    · exact .inr (.inr (.inr ⟨rfl, hc, Block.absorb_data h hc x⟩))
  · exact .inl ⟨.inr rfl, Block.absorb_done h x⟩

@[simp] theorem Block.absorb_mode (b : Block) (x : Byte) : (b.absorb x).mode = b.mode := by
  rcases b.absorb_cases x with ⟨-, h⟩ | ⟨-, h⟩ | ⟨-, -, h⟩ | ⟨-, -, h⟩ <;> simp [h]

@[simp] theorem Block.absorb_result (b : Block) (x : Byte) : (b.absorb x).result = b.result := by
  rcases b.absorb_cases x with ⟨-, h⟩ | ⟨-, h⟩ | ⟨-, -, h⟩ | ⟨-, -, h⟩ <;> simp [h]

@[simp] theorem Block.absorb_cmderr (b : Block) (x : Byte) : (b.absorb x).cmderr = b.cmderr := by
  rcases b.absorb_cases x with ⟨-, h⟩ | ⟨-, h⟩ | ⟨-, -, h⟩ | ⟨-, -, h⟩ <;> simp [h]

@[simp] theorem Block.absorb_crcRx (b : Block) (x : Byte) : (b.absorb x).crcRx = b.crcRx := by
  rcases b.absorb_cases x with ⟨-, h⟩ | ⟨-, h⟩ | ⟨-, -, h⟩ | ⟨-, -, h⟩ <;> simp [h]

/-! ## absorbAll (R152) -/

@[simp] theorem Block.absorbAll_nil (b : Block) : b.absorbAll [] = b := rfl

@[simp] theorem Block.absorbAll_cons (b : Block) (x : Byte) (xs : List Byte) :
    b.absorbAll (x :: xs) = (b.absorb x).absorbAll xs := rfl

theorem Block.absorbAll_append (b : Block) (xs ys : List Byte) :
    b.absorbAll (xs ++ ys) = (b.absorbAll xs).absorbAll ys := by
  simp [Block.absorbAll, List.foldl_append]

/-- What every absorb keeps, absorbAll keeps. -/
theorem Block.absorbAll_keeps {P : Block → Prop} (hP : ∀ c x, P c → P (c.absorb x)) (xs : List Byte) {b : Block}
    (h : P b) : P (b.absorbAll xs) := by
  induction xs generalizing b with
  | nil => exact h
  | cons x xs ih => exact ih (hP b x h)

@[simp] theorem Block.absorbAll_mode (b : Block) (xs : List Byte) : (b.absorbAll xs).mode = b.mode :=
  Block.absorbAll_keeps (P := fun c => c.mode = b.mode) (fun c x h => by simp [h]) xs rfl

@[simp] theorem Block.absorbAll_result (b : Block) (xs : List Byte) : (b.absorbAll xs).result = b.result :=
  Block.absorbAll_keeps (P := fun c => c.result = b.result) (fun c x h => by simp [h]) xs rfl

@[simp] theorem Block.absorbAll_cmderr (b : Block) (xs : List Byte) : (b.absorbAll xs).cmderr = b.cmderr :=
  Block.absorbAll_keeps (P := fun c => c.cmderr = b.cmderr) (fun c x h => by simp [h]) xs rfl

@[simp] theorem Block.absorbAll_crcRx (b : Block) (xs : List Byte) : (b.absorbAll xs).crcRx = b.crcRx :=
  Block.absorbAll_keeps (P := fun c => c.crcRx = b.crcRx) (fun c x h => by simp [h]) xs rfl

/-! ## FINISH (R124, R126) -/

theorem Block.finishResult_ne_none (b : Block) : b.finishResult ≠ .none := by
  unfold Block.finishResult
  split
  · simp
  · split
    · simp
    · split
      · simp
      · split <;> simp

/-- Everything FINISH can do. -/
theorem Block.finish_cases (b : Block) :
    ((b.state = .tag ∨ b.state = .data) ∧ b.finish = b.recordVerdict b.finishResult) ∨
    ((b.state = .idle ∨ b.state = .done) ∧ b.finish = b.setSeqErr) := by
  cases h : b.state <;> simp [Block.finish, h]

/-! ## The outcome of a transaction -/

theorem onBlock_eq (f : Block → Block) (s : State) : onBlock f s = .next (s.setBlock (f s.block)) := rfl

theorem readRegister_eq (r : Reg) (s : State) : readRegister r s = .next (s.observe (s.block.readReg r)) := rfl

theorem ignoreWrite_eq (s : State) : ignoreWrite s = .next s := rfl

/-! ## The script (R236) -/

@[simp] theorem scriptRefusal_nil : scriptRefusal [] = none := rfl

theorem scriptRefusal_cons_eq_none {e : HostEvent} {rest : List HostEvent} :
    scriptRefusal (e :: rest) = none ↔ e.refusal = none ∧ scriptRefusal rest = none := by
  cases h : e.refusal <;> simp [scriptRefusal, h]

theorem HostEvent.refusal_txn_of_ok {k : Key} {i : Instr} (h : decode k = .ok i) :
    (HostEvent.txn k).refusal = none := by
  simp [HostEvent.refusal, h]

@[simp] theorem HostEvent.refusal_reset : HostEvent.reset.refusal = none := rfl

@[simp] theorem HostEvent.refusal_cutOff (k : Key) : (HostEvent.cutOff k).refusal = some .cutOffTransaction := rfl

/-- A script is admitted exactly when every event of it has a step. -/
theorem scriptRefusal_eq_none_iff {es : List HostEvent} :
    scriptRefusal es = none ↔ ∀ e ∈ es, e.refusal = none := by
  induction es with
  | nil => simp
  | cons e rest ih => simp [scriptRefusal_cons_eq_none, ih]

/-- Everything fetchEvent can answer with an event. -/
theorem fetchEvent_eq_ok {s : State} {e : HostEvent} {s' : State} (h : fetchEvent s = .ok (e, s')) :
    ∃ rest, s.script = e :: rest ∧ scriptRefusal s.script = none ∧ s' = { s with script := rest } := by
  unfold fetchEvent at h
  split at h
  · cases h
  · rename_i hn
    split at h
    · cases h
    · rename_i hs
      cases h
      exact ⟨_, hs, hn, rfl⟩

end Sys2Proof.Machine
end

