-- ==== Sys2Proof/Laws/Exec.lean ====
section
/-! SUPPORT. What exec and step can do, once for all instructions. -/

namespace Sys2Proof.Machine

/-- What an instruction does to the block. -/
def blockEffect : Instr → Block → Block
  | .nop, b => b
  | .startGen, b => b.start .gen
  | .startChk, b => b.start .chk
  | .finish, b => b.finish
  | .abort, b => b.abort
  | .cmdRsv _, b => b.setCmdErr
  | .feedb x, b => b.absorb x
  | .feedw w, b => b.absorbAll (wordBytes w)
  | .setrx v, b => b.setCrcRx v
  | _, b => b

/-- A write leaves the script and the observation alone and has its effect on the block. -/
theorem exec_write {i : Instr} (h : readTarget i = none) (s : State) :
    exec i s = .next (s.setBlock (blockEffect i s.block)) := by
  cases i <;> first | rfl | cases h

/-- A read returns its register's value and leaves the block alone (R71). -/
theorem exec_read {i : Instr} {r : Reg} (h : readTarget i = some r) (s : State) :
    exec i s = .next (s.observe (s.block.readReg r)) := by
  cases i <;> cases h <;> rfl

theorem blockEffect_read {i : Instr} {r : Reg} (h : readTarget i = some r) (b : Block) : blockEffect i b = b := by
  cases i <;> cases h <;> rfl

/-- Everything exec can answer: a next state, whose block is the instruction's effect. -/
theorem exec_next_block {i : Instr} {s t : State} (h : exec i s = .next t) :
    t.block = blockEffect i s.block ∧ t.script = s.script := by
  cases hr : readTarget i with
  | none =>
    rw [exec_write hr] at h
    cases h
    exact ⟨rfl, rfl⟩
  | some r =>
    rw [exec_read hr] at h
    cases h
    exact ⟨(blockEffect_read hr _).symm, rfl⟩

/-- Everything a step that answers a next state has done (R236). -/
theorem step_next_cases {s t : State} (h : step s = .next t) :
    (∃ k rest i, s.script = .txn k :: rest ∧ decode k = .ok i ∧ exec i { s with script := rest } = .next t) ∨
    (∃ rest, s.script = .reset :: rest ∧ t = takeReset { s with script := rest }) := by
  unfold step at h
  split at h
  · cases h
  · rename_i e s' hf
    obtain ⟨rest, hs, -, rfl⟩ := fetchEvent_eq_ok hf
    cases e with
    | txn k =>
      simp only [runEvent] at h
      split at h
      · rename_i i hd
        exact .inl ⟨k, rest, i, hs, hd, h⟩
      · cases h
    | reset =>
      cases h
      exact .inr ⟨rest, hs, rfl⟩
    | cutOff k => cases h

/-- The block after a step is the effect of the instruction run, or the reset block. -/
theorem step_next_block {s t : State} (h : step s = .next t) :
    (∃ i, s.NextRuns i ∧ t.block = blockEffect i s.block) ∨ (s.NextResets ∧ t.block = Block.reset) := by
  rcases step_next_cases h with ⟨k, rest, i, hs, hd, he⟩ | ⟨rest, hs, rfl⟩
  · exact .inl ⟨i, ⟨k, rest, hs, hd⟩, (exec_next_block he).1⟩
  · exact .inr ⟨⟨rest, hs⟩, rfl⟩

end Sys2Proof.Machine
end

