-- ==== Sys2Proof/Laws/PerInstr.lean ====
section
/-! SUPPORT. Per-instruction family EncodesTransaction: the encoder never writes a key with PAD != 000, so every encoded
instruction spells a transaction (R91, R95). -/

namespace Sys2Proof.Laws.EncodesTransaction

/-- The key of an instruction has PAD = 000. -/
def Statement (i : Instr) : Prop := (encode i).pad = 0

theorem nop : Statement .nop := Key.mk_pad _ _ _
theorem startGen : Statement .startGen := Key.mk_pad _ _ _
theorem startChk : Statement .startChk := Key.mk_pad _ _ _
theorem finish : Statement .finish := Key.mk_pad _ _ _
theorem abort : Statement .abort := Key.mk_pad _ _ _
theorem cmdRsv (v : Word) : Statement (.cmdRsv v) := Key.mk_pad _ _ _
theorem wrStatus (x : Word) : Statement (.wrStatus x) := Key.mk_pad _ _ _
theorem feedb (b : Byte) : Statement (.feedb b) := Key.mk_pad _ _ _
theorem feedw (w : Word) : Statement (.feedw w) := Key.mk_pad _ _ _
theorem setrx (v : Word) : Statement (.setrx v) := Key.mk_pad _ _ _
theorem wrCrcOut (x : Word) : Statement (.wrCrcOut x) := Key.mk_pad _ _ _
theorem wrCount (x : Word) : Statement (.wrCount x) := Key.mk_pad _ _ _
theorem wrTag (x : Word) : Statement (.wrTag x) := Key.mk_pad _ _ _
theorem wrRsv (n : Slot) (x : Word) : Statement (.wrRsv n x) := Key.mk_pad _ _ _
theorem rdCmd : Statement .rdCmd := Key.mk_pad _ _ _
theorem rdStatus : Statement .rdStatus := Key.mk_pad _ _ _
theorem rdDinB : Statement .rdDinB := Key.mk_pad _ _ _
theorem rdDinW : Statement .rdDinW := Key.mk_pad _ _ _
theorem rdCrcRx : Statement .rdCrcRx := Key.mk_pad _ _ _
theorem rdCrcOut : Statement .rdCrcOut := Key.mk_pad _ _ _
theorem rdCount : Statement .rdCount := Key.mk_pad _ _ _
theorem rdTag : Statement .rdTag := Key.mk_pad _ _ _
theorem rdRsv (n : Slot) : Statement (.rdRsv n) := Key.mk_pad _ _ _

end Sys2Proof.Laws.EncodesTransaction
end

