-- ==== Sys2Proof/Tests/Slice0.lean ====
section
/-! SUPPORT. Tests with values taken from the spec (95_test_vectors.md and the examples of the rules), the smoke test of
WellFormed, and for every statement with hypotheses a state and operands that meet them (witness_<statement>). -/

namespace Sys2Proof.Machine

/-! ## Helpers -/

/-- The next state of an outcome, if there is one. -/
def nextOf : Host.Outcome State Fault Refusal → Option State
  | .next s => some s
  | .fault _ => none
  | .refused _ => none

/-- A machine with a given block and nothing pending. -/
def withBlock (b : Block) : State := { State.reset with block := b }

/-- What a test looks at in the next block. -/
def look {α : Type} (f : Block → α) (o : Host.Outcome State Fault Refusal) : Option α :=
  (nextOf o).map fun s => f s.block

/-- The values returned by the reads of an outcome. -/
def readsOf (o : Host.Outcome State Fault Refusal) : Option (List Word) := (nextOf o).map State.reads

/-- After START in mode m. -/
def started (m : Mode) : Block := Block.reset.start m

/-- After START.GEN and the bytes "IE" (95 section 2.1: ACC after step 1). -/
def afterIE : Block :=
  { started .gen with tagcnt := 2, tagb := ⟨0x49, 0x45, 0, 0⟩, acc := 0x992BAC53 }

/-- After START and the tag "IEND" (95 section 2.1: ACC after step 3). -/
def afterIEND (m : Mode) : Block :=
  { started m with state := .data, tagcnt := 4, tagb := ⟨0x49, 0x45, 0x4E, 0x44⟩, acc := 0x51BD9F7D }

/-- The end state of program P1 (95 section 3). -/
def endOfP1 : Block := { afterIEND .gen with state := .done, result := .ok }

/-- The start state S_ovf (95 section 2.4). -/
def sOvf : Block := { afterIEND .chk with count := 0xFFFFFFFE, acc := 0x12345678 }

/-- The state after O1 (95 section 2.4). -/
def sFull : Block := { sOvf with count := 0xFFFFFFFF, acc := 0x29CBFDCE, ovf := true }

/-- A block in state st of a mode whose tag is t, complete, as 95 section 2.2 leaves it. -/
def doneWith (t : Tag) (r : Result) : Block :=
  { started .gen with state := .done, tagcnt := 4, tagb := t, result := r }

/-! ## WellFormed smoke: one ill-formed term for each check -/

theorem test_wellFormed_cmdRsv_refuses_finish_value : (Instr.cmdRsv 3).wellFormed = false := by decide
theorem test_wellFormed_wrRsv_refuses_tag_slot : (Instr.wrRsv 7 0).wellFormed = false := by decide
theorem test_wellFormed_rdRsv_refuses_cmd_slot : (Instr.rdRsv 0).wellFormed = false := by decide

/-! ## Decode: keys written out from R91 and R94 (WE, PAD, WADDR, WDATA) -/

theorem test_decode_nop : decode 0b1000000000000000000000000000000000000000 = .ok .nop := by rfl
theorem test_decode_startGen : decode 0b1000000000000000000000000000000000000001 = .ok .startGen := by rfl
theorem test_decode_startChk : decode 0b1000000000000000000000000000000000000010 = .ok .startChk := by rfl
theorem test_decode_finish : decode 0b1000000000000000000000000000000000000011 = .ok .finish := by rfl
theorem test_decode_abort : decode 0b1000000000000000000000000000000000000100 = .ok .abort := by rfl
theorem test_decode_cmdRsv : decode 0b1000000000000000000000000000000100000001 = .ok (.cmdRsv 0x101) := by rfl
theorem test_decode_wrStatus : decode 0b1000000111111111111111111111111111111111 = .ok (.wrStatus 0xFFFFFFFF) := by rfl
theorem test_decode_feedb : decode 0b1000001000000000000000000001001000110100 = .ok (.feedb 0x34) := by rfl
theorem test_decode_feedw : decode 0b1000001101001001010001010100111001000100 = .ok (.feedw 0x49454E44) := by rfl
theorem test_decode_setrx : decode 0b1000010010101011110100011101100001001110 = .ok (.setrx 0xABD1D84E) := by rfl
theorem test_decode_wrCrcOut : decode 0b1000010100000000000000000000000000000001 = .ok (.wrCrcOut 1) := by rfl
theorem test_decode_wrCount : decode 0b1000011000000000000000000000000000001001 = .ok (.wrCount 9) := by rfl
theorem test_decode_wrTag : decode 0b1000011101010010011101010101001101110100 = .ok (.wrTag 0x52755374) := by rfl
theorem test_decode_wrRsv : decode 0b1000100111111111111111111111111111111111 = .ok (.wrRsv 9 0xFFFFFFFF) := by rfl
theorem test_decode_rdCmd : decode 0b0000000000000000000000000000000000000000 = .ok .rdCmd := by rfl
theorem test_decode_rdStatus : decode 0b0000000100000000000000000000000000000000 = .ok .rdStatus := by rfl
theorem test_decode_rdDinB : decode 0b0000001000000000000000000000000000000000 = .ok .rdDinB := by rfl
theorem test_decode_rdDinW : decode 0b0000001100000000000000000000000000000000 = .ok .rdDinW := by rfl
theorem test_decode_rdCrcRx : decode 0b0000010000000000000000000000000000000000 = .ok .rdCrcRx := by rfl
theorem test_decode_rdCrcOut : decode 0b0000010100000000000000000000000000000000 = .ok .rdCrcOut := by rfl
theorem test_decode_rdCount : decode 0b0000011000000000000000000000000000000000 = .ok .rdCount := by rfl
theorem test_decode_rdTag : decode 0b0000011111111111111111111111111111111111 = .ok .rdTag := by rfl
theorem test_decode_rdRsv : decode 0b0000111100000000000000000000000000000000 = .ok (.rdRsv 15) := by rfl
theorem test_decode_refuses_each_pad_bit :
    decode 0x9000000001 = .error .padNonZero ∧ decode 0xA000000001 = .error .padNonZero ∧
    decode 0xC000000001 = .error .padNonZero ∧ decode 0x7500000000 = .error .padNonZero := by
  refine ⟨?_, ?_, ?_, ?_⟩ <;> rfl

/-- Keys of program P3 (95 section 3) are the canonical keys of its transactions. -/
theorem test_encode_P3_keys :
    encode .startChk = 0x8000000002 ∧ encode (.setrx 0xAAD1D84E) = 0x84AAD1D84E ∧
    encode (.feedw 0x52755374) = 0x8352755374 ∧ encode (.feedb 0x21) = 0x8200000021 ∧
    encode .rdCrcOut = 0x0500000000 ∧ encode .abort = 0x8000000004 ∧ encode (.cmdRsv 9) = 0x8000000009 := by
  decide

theorem test_decodeTableWord :
    decodeTableWord 40 0x8352755374 = some (.feedw 0x52755374) ∧ decodeTableWord 40 0x9000000000 = none := by
  decide

/-! ## CRC: 95 sections 1 and 2.1 -/

theorem test_crc_check_value : crc32 [0x31, 0x32, 0x33, 0x34, 0x35, 0x36, 0x37, 0x38, 0x39] = 0xCBF43926 := by
  decide +kernel

/-- W1: the source's own example, 2882656334 (C1: 42 data bytes). -/
theorem test_crc_source_example :
    crc32 [0x52, 0x75, 0x53, 0x74, 0x54, 0x68, 0x69, 0x73, 0x20, 0x69, 0x73, 0x20, 0x77, 0x68, 0x65, 0x72, 0x65, 0x20,
      0x79, 0x6F, 0x75, 0x72, 0x20, 0x73, 0x65, 0x63, 0x72, 0x65, 0x74, 0x20, 0x6D, 0x65, 0x73, 0x73, 0x61, 0x67, 0x65,
      0x20, 0x77, 0x69, 0x6C, 0x6C, 0x20, 0x62, 0x65, 0x21] = 2882656334 := by decide +kernel

/-- Rows of the table T[i] (R18, 95 section 2.1): the first, the one with POLY_R, and the last. -/
theorem test_crc_table_rows :
    (List.range 8).map (fun i => crcTable (BitVec.ofNat 8 i)) =
      [0x00000000, 0x77073096, 0xEE0E612C, 0x990951BA, 0x076DC419, 0x706AF48F, 0xE963A535, 0x9E6495A3] ∧
    (List.range 8).map (fun i => crcTable (BitVec.ofNat 8 (128 + i))) =
      [0xEDB88320, 0x9ABFB3B6, 0x03B6E20C, 0x74B1D29A, 0xEAD54739, 0x9DD277AF, 0x04DB2615, 0x73DC1683] ∧
    (List.range 8).map (fun i => crcTable (BitVec.ofNat 8 (248 + i))) =
      [0xB3667A2E, 0xC4614AB8, 0x5D681B02, 0x2A6F2B94, 0xB40BBE37, 0xC30C8EA1, 0x5A05DF1B, 0x2D02EF8D] := by decide

/-! ## STATUS: 95 sections 1 (W3) and 2.2 -/

theorem test_status_of_tags :
    (doneWith ⟨0x52, 0x75, 0x53, 0x74⟩ .ok).status = 0x003B0223 ∧
    (doneWith ⟨0x72, 0x75, 0x53, 0x74⟩ .ok).status = 0x00390223 ∧
    (doneWith ⟨0x52, 0x55, 0x53, 0x74⟩ .ok).status = 0x003F0223 ∧
    (doneWith ⟨0x52, 0x75, 0x73, 0x74⟩ .ok).status = 0x00130223 ∧
    (doneWith ⟨0x52, 0x75, 0x53, 0x54⟩ .ok).status = 0x002B0223 ∧
    (doneWith ⟨0x52, 0x75, 0x31, 0x74⟩ .badTag).status = 0x00120823 ∧
    (doneWith ⟨0x40, 0x5B, 0x60, 0x7B⟩ .badTag).status = 0x00000823 ∧
    (doneWith ⟨0x41, 0x5B, 0x5A, 0x7A⟩ .badTag).status = 0x001A0823 ∧
    (doneWith ⟨0xC1, 0xC2, 0xD3, 0xE4⟩ .badTag).status = 0x00000823 := by decide

/-! ## One step of each instruction -/

/-- C1. -/
theorem test_nop : look Block.status (exec .nop State.reset) = some 0 := by decide

/-- C5: a restart discards everything. -/
theorem test_startGen_discards : look (fun b => (b.status, b.tagWord, b.crcOut)) (exec .startGen (withBlock sFull)) =
    some (0x00000001, 0, 0) := by decide

/-- C6: CRC_RX is kept. -/
theorem test_startChk_keeps_crcRx :
    look (fun b => (b.status, b.crcRx)) (exec .startChk (withBlock { Block.reset with crcRx := 0x12345678 })) =
      some (0x00000005, 0x12345678) := by decide

/-- C10. -/
theorem test_finish_empty_data : look (fun b => (b.status, b.crcOut)) (exec .finish (withBlock (afterIEND .gen))) =
    some (0x002F0223, 0xAE426082) := by decide

/-- O2: LEN_OVERFLOW takes precedence over CRC_MISMATCH. -/
theorem test_finish_overflow_first : look (fun b => (b.status, b.acc)) (exec .finish (withBlock sFull)) =
    some (0x002F0667, 0x29CBFDCE) := by decide

/-- C20. -/
theorem test_abort_keeps_crcRx :
    look (fun b => (b.status, b.crcRx, b.crcOut)) (exec .abort (withBlock { afterIE with crcRx := 0xCAFEF00D })) =
      some (0x00000000, 0xCAFEF00D, 0) := by decide

/-- C24. -/
theorem test_cmdRsv : look Block.status (exec (.cmdRsv 0x101) State.reset) = some 0x00000080 := by decide

/-- F3. -/
theorem test_feedb_first_tag_byte :
    look (fun b => (b.status, b.tagWord, b.acc, b.crcOut)) (exec (.feedb 0x52) (withBlock (started .gen))) =
      some (0x00000009, 0x52000000, 0xA89820AA, 0x5767DF55) := by decide

/-- F9: a feed in DONE sets SEQERR only. -/
theorem test_feedb_in_done :
    look (fun b => (b.status, b.count, b.crcOut)) (exec (.feedb 0) (withBlock endOfP1)) =
      some (0x002F0323, 0, 0xAE426082) := by decide

/-- F6: a word that spans tag and data. -/
theorem test_feedw_spans_tag_and_data :
    look (fun b => (b.status, b.tagWord, b.count, b.crcOut)) (exec (.feedw 0x4E445445) (withBlock afterIE)) =
      some (0x002F0022, 0x49454E44, 2, 0xDDBF0A63) := by decide +kernel

/-- O1: the maximum COUNT is reached inside the word. -/
theorem test_feedw_overflows_midway :
    look (fun b => (b.status, b.count, b.acc)) (exec (.feedw 0x01020304) (withBlock sOvf)) =
      some (0x002F0066, 0xFFFFFFFF, 0x29CBFDCE) := by decide

/-- C14: SETRX after FINISH does not change the verdict. -/
theorem test_setrx_after_finish :
    look (fun b => (b.status, b.crcRx))
      (exec (.setrx 0xAE426082) (withBlock { afterIEND .chk with state := .done, result := .crcMismatch })) =
      some (0x002F0A27, 0xAE426082) := by decide

/-- A13. -/
theorem test_rdCmd : readsOf (exec .rdCmd (withBlock endOfP1)) = some [0] := by decide
/-- P1 row 4. -/
theorem test_rdStatus : readsOf (exec .rdStatus (withBlock endOfP1)) = some [0x002F0223] := by decide
/-- A14. -/
theorem test_rdDinB : readsOf (exec .rdDinB (withBlock endOfP1)) = some [0] := by decide
/-- A15. -/
theorem test_rdDinW : readsOf (exec .rdDinW (withBlock endOfP1)) = some [0] := by decide
/-- A11. -/
theorem test_rdCrcRx :
    readsOf (exec .rdCrcRx (withBlock { Block.reset with crcRx := 0xABD1D84E })) = some [0xABD1D84E] := by decide
/-- P1 row 5. -/
theorem test_rdCrcOut : readsOf (exec .rdCrcOut (withBlock endOfP1)) = some [0xAE426082] := by decide
/-- O1: the COUNT of a full counter. -/
theorem test_rdCount : readsOf (exec .rdCount (withBlock sFull)) = some [0xFFFFFFFF] := by decide
/-- P1 row 7. -/
theorem test_rdTag : readsOf (exec .rdTag (withBlock endOfP1)) = some [0x49454E44] := by decide
/-- A10. -/
theorem test_rdRsv : readsOf (exec (.rdRsv 15) (withBlock endOfP1)) = some [0] := by decide
/-- A17: writing ones to STATUS clears no sticky flag. -/
theorem test_wrStatus :
    look Block.status (exec (.wrStatus 0x100) (withBlock { Block.reset with seqerr := true })) = some 0x100 := by decide
/-- A18: ACC cannot be preset. -/
theorem test_wrCrcOut : look Block.crcOut (exec (.wrCrcOut 0) (withBlock endOfP1)) = some 0xAE426082 := by decide
/-- A19. -/
theorem test_wrCount : look Block.count (exec (.wrCount 9) (withBlock endOfP1)) = some 0 := by decide
/-- A20. -/
theorem test_wrTag : look Block.tagWord (exec (.wrTag 0x52755374) (withBlock endOfP1)) = some 0x49454E44 := by decide
/-- A22. -/
theorem test_wrRsv : look Block.status (exec (.wrRsv 12 1) State.reset) = some 0 := by decide

/-! ## Steps and scripts -/

/-- P5: Reset() clears CRC_RX too. -/
theorem test_step_reset :
    look (fun b => (b.status, b.crcRx, b.crcOut))
      (step { withBlock { afterIEND .gen with crcRx := 0x11111111 } with script := [.reset] }) = some (0, 0, 0) := by
  decide

theorem test_step_runs_placed_word :
    look Block.status (step (State.reset.withFetchWord 40 0x8000000002)) = some 0x00000005 := by decide

/-- W1: the wire form of the IEND chunk of P1. -/
theorem test_wire_IEND :
    endOfP1.wireChunk [] = [0, 0, 0, 0, 0x49, 0x45, 0x4E, 0x44, 0xAE, 0x42, 0x60, 0x82] := by decide +kernel

/-- P2's FEED expansion ends with single bytes (R98). -/
theorem test_pseudoFeed_remainder :
    pseudoFeed [0x6C, 0x6C, 0x20, 0x62, 0x65, 0x21] = [.feedw 0x6C6C2062, .feedb 0x65, .feedb 0x21] := by decide

/-- Lines of P3 and their keys (R97, R99). -/
theorem test_parseLine_and_parseKey :
    parseLine ['S', 'E', 'T', 'R', 'X', ' ', '0', 'x', 'A', 'A', 'D', '1', 'D', '8', '4', 'E', ' ', ';', 'c'] =
      some [.setrx 0xAAD1D84E] ∧
    parseLine ['W', 'R', '.', 'R', 'S', 'V', ' ', '9', ',', ' ', '1'] = some [.wrRsv 9 1] ∧
    parseLine ['C', 'M', 'D', '.', 'R', 'S', 'V', ' ', '3'] = none ∧
    parseLine ['G', 'E', 'N', ' ', '"', 'I', 'E', 'N', 'D', '"', ',', ' ', '"', '"'] =
      some (pseudoGen [0x49, 0x45, 0x4E, 0x44] []) ∧
    parseKey ['8', '4', 'A', 'A', 'D', '1', 'D', '8', '4', 'E'] = some 0x84AAD1D84E := by decide +kernel

/-! ## Witnesses: each statement's hypotheses can be met -/

/-- A machine with a given block and one transaction pending. -/
def pending (b : Block) (k : Key) : State := { withBlock b with script := [.txn k] }

/-- The block of a pending machine after its step, for reading off what a step did. -/
def stepBlock (s : State) : Option Block := look id (step s)

/-- A step that answers a block answers a next state with that block. -/
theorem step_of_stepBlock {s : State} {b : Block} (h : stepBlock s = some b) :
    ∃ t, step s = .next t ∧ t.block = b := by
  cases hs : step s with
  | next t => exact ⟨t, rfl, by simpa [stepBlock, look, nextOf, hs] using h⟩
  | fault r => simp [stepBlock, look, nextOf, hs] at h
  | refused r => simp [stepBlock, look, nextOf, hs] at h

theorem nextRuns_pending {b : Block} {k : Key} {i : Instr} (h : decode k = .ok i) : (pending b k).NextRuns i :=
  ⟨k, [], rfl, h⟩

theorem reset_meets_inv : Block.reset.Inv := by
  constructor
  · intro _; decide
  · intro h; cases h
  · intro h; cases h
  · decide
  · decide
  · decide
  · exact ⟨[], rfl, rfl⟩
  · decide
  · intro n _ h4; interval_cases n <;> rfl

theorem started_meets_inv (m : Mode) : (started m).Inv := by
  constructor
  · intro h; cases h
  · intro _; exact ⟨(by decide : (0 : BitVec 3) < 4), rfl, rfl, rfl⟩
  · intro h; cases h
  · simp [started]
  · simp [started]
  · exact (by decide : (0 : BitVec 3) ≤ 4)
  · exact ⟨[], rfl, rfl⟩
  · intro _; rfl
  · intro n _ h4; interval_cases n <;> rfl

theorem afterIEND_meets_inv (m : Mode) : (afterIEND m).Inv := by
  constructor
  · intro h; cases h
  · intro h; cases h
  · intro _; exact ⟨rfl, rfl⟩
  · simp [afterIEND, started]
  · simp [afterIEND, started]
  · exact (by decide : (4 : BitVec 3) ≤ 4)
  · refine ⟨[], rfl, ?_⟩
    show (0x51BD9F7D : Word) = crcFold 0xFFFFFFFF [0x49, 0x45, 0x4E, 0x44]
    decide +kernel
  · intro _; rfl
  · intro n h h4
    have h' : 4 ≤ n := h
    omega

theorem witness_LetterCase_boundaries :
    isUpper 0x40 = false ∧ isUpper 0x41 = true ∧ isUpper 0x5A = true ∧ isUpper 0x5B = false ∧
    isLower 0x60 = false ∧ isLower 0x61 = true ∧ isLower 0x7A = true ∧ isLower 0x7B = false ∧
    isAlpha 0x5B = false := by decide

theorem witness_OneByteChangeAlwaysChangesCrc : (0x00 : Byte) ≠ 0x01 := by decide

theorem witness_DecodeInvertsEncode :
    (Instr.cmdRsv 5).WellFormed ∧ (Instr.wrRsv 8 0).WellFormed ∧ (Instr.rdRsv 15).WellFormed := by decide

theorem witness_DecodeLosesOnlyIgnoredBits : decode 0x8200001234 = .ok (.feedb 0x34) := by rfl

theorem witness_DecodeFollowsProcedureAndMap_pad :
    (0x9000000000 : Key).extractLsb' 36 3 ≠ 0 ∧ (0xF8FFFFFFFF : Key).extractLsb' 36 3 ≠ 0 := by decide

theorem witness_DecodeFollowsProcedureAndMap_reads :
    (0x0FFFFFFFFF : Key).extractLsb' 36 3 = 0 ∧ (0x0FFFFFFFFF : Key).getLsbD 39 = false ∧
    [0x0000000000, 0x0100000000, 0x0200000000, 0x0300000000, 0x0400000000, 0x0500000000, 0x0600000000, 0x0700000000,
      0x0800000000, 0x0F00000000].map (fun k : Key => (k.pad, k.we, k.waddr)) =
      [0, 1, 2, 3, 4, 5, 6, 7, 8, 15].map (fun n : Slot => (0, false, n)) := by decide

theorem witness_DecodeFollowsProcedureAndMap_writes :
    [0x8000000000, 0x8100000000, 0x8200000000, 0x8300000000, 0x8400000000, 0x8500000000, 0x8600000000, 0x8700000000,
      0x8800000000, 0x8F00000000].map (fun k : Key => (k.pad, k.we, k.waddr)) =
      [0, 1, 2, 3, 4, 5, 6, 7, 8, 15].map (fun n : Slot => (0, true, n)) ∧
    [0x8000000000, 0x8000000001, 0x8000000002, 0x8000000003, 0x8000000004, 0x8000000005, 0x80FFFFFFFF].map
      (fun k : Key => k.wdata) = [0, 1, 2, 3, 4, 5, 0xFFFFFFFF] := by decide +kernel

theorem witness_OnlyReservedCommandRowOverlaps :
    ∃ r ∈ opcodeMap, ∃ r' ∈ opcodeMap, r ≠ r' ∧ (0x8000000004 : Key) &&& r.mask = r.pattern ∧
      (0x8000000004 : Key) &&& r'.mask = r'.pattern :=
  ⟨⟨"ABORT", 0x8000000004, 0xFFFFFFFFFF⟩, by decide, ⟨"CMD.RSV", 0x8000000000, 0xFF00000000⟩, by decide, by decide,
    by decide, by decide⟩

theorem witness_AssembleInvertsDisassemble :
    (Instr.cmdRsv 0xFFFFFFFF).WellFormed ∧ (Instr.wrRsv 15 0).WellFormed ∧ (Instr.rdRsv 8).WellFormed := by decide

theorem witness_ResetEventWritesResetValues :
    ∃ (s : State) (t : State), s.script = [.reset] ∧ (∀ e ∈ ([] : List HostEvent), e.Admissible) ∧ s.NextResets ∧
      s.block ≠ Block.reset ∧ step s = .next t :=
  ⟨{ withBlock sFull with script := [.reset] }, _, rfl, by simp, ⟨[], rfl⟩, by decide, rfl⟩

theorem witness_StepKeepsReachableRules :
    ∃ s t : State, s.Inv ∧ step s = .next t ∧ t.block.state = .tag := by
  obtain ⟨t, ht, hb⟩ := step_of_stepBlock (s := pending Block.reset 0x8000000001) (b := started .gen) (by decide)
  exact ⟨_, t, (show (pending Block.reset 0x8000000001).Inv from reset_meets_inv), ht, by rw [hb]; rfl⟩

theorem witness_RunsStayWithinReachableRules :
    ∃ t : State, Host.Core.run Sys2Proof.core 1 { State.reset with script := [.txn 0x8000000002] } = .next t ∧
      t.block = started .chk := ⟨_, rfl, by decide⟩

theorem witness_streams_of_feeds :
    (Instr.startGen = .startGen ∨ Instr.startGen = .startChk) ∧
    (∀ i ∈ [Instr.feedb 0x49, .feedw 0x454E4454], isFeed i = true) ∧
    [Instr.feedb 0x49, .feedw 0x454E4454].flatMap feedBytes = [0x49, 0x45, 0x4E, 0x44, 0x54] := by decide

theorem witness_OnlySetrxAndResetChangeCrcRx :
    (∃ s t : State, step s = .next t ∧ t.block.crcRx ≠ s.block.crcRx ∧ s.NextRuns (.setrx 0xABD1D84E)) ∧
    (∃ s t : State, step s = .next t ∧ t.block.crcRx ≠ s.block.crcRx ∧ s.NextResets) := by
  obtain ⟨t, ht, hb⟩ := step_of_stepBlock (s := pending Block.reset 0x84ABD1D84E)
    (b := { Block.reset with crcRx := 0xABD1D84E }) (by decide)
  refine ⟨⟨_, t, ht, by rw [hb]; decide, nextRuns_pending rfl⟩,
    { withBlock { Block.reset with crcRx := 1 } with script := [.reset] }, _, rfl, by decide, ⟨[], rfl⟩⟩

/-- Each sticky flag rises in some step, and START clears it. -/
theorem witness_StickyFlags :
    (∃ s t : State, step s = .next t ∧ s.block.ovf = false ∧ t.block.ovf = true) ∧
    (∃ s t : State, step s = .next t ∧ s.block.seqerr = false ∧ t.block.seqerr = true) ∧
    (∃ s t : State, step s = .next t ∧ s.block.cmderr = false ∧ t.block.cmderr = true) ∧
    (∃ s t : State, step s = .next t ∧ s.block.ovf = true ∧ t.block.ovf = false ∧
      ∃ i, s.NextRuns i ∧ isRestart i) := by
  obtain ⟨t1, h1, b1⟩ := step_of_stepBlock (s := pending sOvf 0x8301020304) (b := sFull) (by decide)
  obtain ⟨t2, h2, b2⟩ := step_of_stepBlock (s := pending Block.reset 0x8000000003)
    (b := { Block.reset with seqerr := true }) (by decide)
  obtain ⟨t3, h3, b3⟩ := step_of_stepBlock (s := pending Block.reset 0x8000000005)
    (b := { Block.reset with cmderr := true }) (by decide)
  obtain ⟨t4, h4, b4⟩ := step_of_stepBlock (s := pending sFull 0x8000000001) (b := started .gen) (by decide)
  exact ⟨⟨_, t1, h1, rfl, by rw [b1]; rfl⟩, ⟨_, t2, h2, rfl, by rw [b2]⟩, ⟨_, t3, h3, rfl, by rw [b3]⟩,
    ⟨_, t4, h4, rfl, by rw [b4]; rfl, .startGen, nextRuns_pending rfl, .inl rfl⟩⟩

/-- Each transition of the sequencer is taken by some step. -/
theorem witness_SequencerTakesOnlyItsTransitions :
    (∃ s t : State, step s = .next t ∧ s.block.state ≠ .idle ∧ t.block.state = .idle) ∧
    (∃ s t : State, step s = .next t ∧ s.block.state ≠ .tag ∧ t.block.state = .tag) ∧
    (∃ s t : State, step s = .next t ∧ s.block.state = .tag ∧ t.block.state = .data) ∧
    (∃ s t : State, step s = .next t ∧ s.block.state = .data ∧ t.block.state = .done) := by
  obtain ⟨t1, h1, b1⟩ := step_of_stepBlock (s := pending endOfP1 0x8000000004) (b := Block.reset) (by decide)
  obtain ⟨t2, h2, b2⟩ := step_of_stepBlock (s := pending endOfP1 0x8000000001) (b := started .gen) (by decide)
  obtain ⟨t3, h3, b3⟩ := step_of_stepBlock (s := pending (started .gen) 0x8349454E44) (b := afterIEND .gen)
    (by decide +kernel)
  obtain ⟨t4, h4, b4⟩ := step_of_stepBlock (s := pending (afterIEND .gen) 0x8000000003) (b := endOfP1) (by decide)
  exact ⟨⟨_, t1, h1, by decide, by rw [b1]; rfl⟩, ⟨_, t2, h2, by decide, by rw [b2]; rfl⟩,
    ⟨_, t3, h3, rfl, by rw [b3]; rfl⟩, ⟨_, t4, h4, rfl, by rw [b4]; rfl⟩⟩

theorem witness_ResultChangesOnlyAtFinishOrRestart :
    ∃ s t : State, step s = .next t ∧ t.block.result ≠ s.block.result := by
  obtain ⟨t, h, b⟩ := step_of_stepBlock (s := pending (afterIEND .gen) 0x8000000003) (b := endOfP1) (by decide)
  exact ⟨_, t, h, by rw [b]; decide⟩

theorem witness_TagFlagsWaitForWholeTag :
    (started .gen).tagcnt < 4 ∧ (({ started .gen with tagcnt := 3 } : Block).tagcnt < 4) ∧ endOfP1.tagcnt = 4 := by
  decide

theorem witness_ReadsHaveNoSideEffectsAndRepeatedWrites :
    readTarget .rdStatus = some .status ∧ readTarget (.setrx 1) = none ∧ isFeed (.setrx 1) = false ∧
    Instr.setrx 1 ≠ .finish ∧ (∃ t, exec (.setrx 1) State.reset = .next t) ∧ (∃ t, exec .finish State.reset = .next t) :=
  ⟨rfl, rfl, rfl, by decide, ⟨_, rfl⟩, ⟨_, rfl⟩⟩

theorem witness_KeysActAsBusTransactions :
    (pending sOvf 0x8301020304).script = .txn 0x8301020304 :: [] ∧ (0x8301020304 : Key).pad = 0 ∧
    (0x8301020304 : Key).we = true ∧ (0x0500000000 : Key).pad = 0 ∧ (0x0500000000 : Key).we = false := by decide

theorem witness_commands_answer :
    (∃ t, exec .startGen State.reset = .next t) ∧ (∃ t, exec .startChk State.reset = .next t) ∧
    (∃ t, exec .abort State.reset = .next t) ∧ (∃ t, exec (.cmdRsv 5) State.reset = .next t) ∧
    (∃ t, exec .finish State.reset = .next t) := ⟨⟨_, rfl⟩, ⟨_, rfl⟩, ⟨_, rfl⟩, ⟨_, rfl⟩, ⟨_, rfl⟩⟩

/-- The ends of the ranges of reserved commands and slots, and the values next below them. -/
theorem witness_reserved_ranges :
    (5 : Word) ≤ 5 ∧ (5 : Word) ≤ 0xFFFFFFFF ∧ ¬ (5 : Word) ≤ 4 ∧ (8 : Slot) ≤ 8 ∧ (8 : Slot) ≤ 15 ∧
    ¬ (8 : Slot) ≤ 7 := by decide

/-- A reserved command inside a computation: instructions between it and FINISH that are well formed and no restart. -/
theorem witness_ReservedCommandSetsOnlyCmdErr :
    (5 : Word) ≤ 5 ∧
    ∀ i ∈ [Instr.feedb 0x49, .rdStatus, .setrx 1, .feedw 0x454E4454, .wrRsv 8 0], i.WellFormed ∧ ¬ isRestart i := by
  simp [isRestart]
  decide

/-- The lists between START and RD.CRC_OUT, the restarts, and well-formed reads and writes of reserved slots. -/
theorem witness_ReadsReturnTheirRegister :
    (∀ i ∈ [Instr.feedb 0x49, .feedw 0x454E4454], isFeed i = true) ∧ isRestart .startGen ∧ isRestart .startChk ∧
    isRestart .abort ∧ (Instr.rdRsv 8).WellFormed ∧ readTarget (.rdRsv 8) = some .reserved ∧
    (Instr.wrRsv 15 0).WellFormed ∧ readTarget (.wrRsv 15 0) = none :=
  ⟨by decide, .inl rfl, .inr (.inl rfl), .inr (.inr rfl), by decide, rfl, by decide, rfl⟩

/-- One block for each test of the verdict function. -/
theorem witness_VerdictIsFirstFailingTest :
    (started .gen).finishResult = .shortTag ∧ ({ started .gen with tagcnt := 3 } : Block).finishResult = .shortTag ∧
    sFull.finishResult = .lenOverflow ∧
    ({ afterIEND .gen with tagb := ⟨0x52, 0x75, 0x31, 0x74⟩ } : Block).finishResult = .badTag ∧
    (afterIEND .chk).finishResult = .crcMismatch ∧
    ({ afterIEND .chk with crcRx := 0xAE426082 } : Block).finishResult = .ok ∧
    (afterIEND .gen).finishResult = .ok := by decide

theorem witness_FinishRecordsVerdictOrSequenceError :
    (withBlock (started .gen)).Inv ∧ (started .gen).state = .tag ∧ (withBlock (afterIEND .chk)).Inv ∧
    (afterIEND .chk).state = .data ∧ (afterIEND .chk).count = 0 ∧ Block.reset.state = .idle ∧ endOfP1.state = .done ∧
    endOfP1.mode = .gen :=
  ⟨started_meets_inv .gen, rfl, afterIEND_meets_inv .chk, rfl, rfl, rfl, rfl, rfl⟩

/-- A state for each arm of absorb, at the ends of its range. -/
theorem witness_FeedbAbsorbsOneByte :
    Block.reset.state = .idle ∧ endOfP1.state = .done ∧ (started .gen).state = .tag ∧ (started .gen).tagcnt = 0 ∧
    ({ started .gen with tagcnt := 3 } : Block).tagcnt < 4 ∧ sFull.state = .data ∧ sFull.count = 0xFFFFFFFF ∧
    sOvf.state = .data ∧ sOvf.count ≠ 0xFFFFFFFF := by decide

theorem witness_FeedsOutsideRoomSetOnlyTheirFlag :
    ({ started .gen with tagcnt := 3 } : Block).state = .tag ∧ ({ started .gen with tagcnt := 3 } : Block).tagcnt = 3 ∧
    (∀ i ∈ [Instr.feedw 1, .feedb 2], isFeed i = true) ∧ [Instr.feedw 1, .feedb 2] ≠ [] ∧ sFull.state = .data ∧
    sFull.count = 0xFFFFFFFF ∧ Block.reset.state = .idle ∧ endOfP1.state = .done := by decide

theorem witness_CompleteTagIsFrozenUntilRestart :
    ∃ s t : State, s.block.state = .data ∧ step s = .next t ∧ s.block.count ≠ t.block.count := by
  obtain ⟨t, h, b⟩ := step_of_stepBlock (s := pending sOvf 0x8301020304) (b := sFull) (by decide)
  exact ⟨_, t, rfl, h, by rw [b]; decide⟩

theorem witness_SetrxWritesAndReadsBack :
    (started .gen).mode = .gen ∧ (afterIEND .chk).mode = .chk ∧ ¬ (afterIEND .chk).tagcnt < 4 ∧
    (afterIEND .chk).ovf = false ∧ tagAlpha (afterIEND .chk).tagb = true := by decide

theorem witness_GenerateModeIgnoresCrcRx :
    (started .gen).mode = .gen ∧
    ∀ i ∈ [Instr.feedw 0x49454E44, .setrx 7, .finish, .rdStatus], i ≠ .startChk ∧ i ≠ .rdCrcRx := by decide

/-- A transaction that raises each flag. -/
theorem witness_OneTransactionSetsOneKindOfFlag :
    look (fun b => (b.ovf, b.seqerr, b.cmderr)) (exec (.feedw 0x01020304) (withBlock sOvf)) =
      some (true, false, false) ∧
    look (fun b => (b.ovf, b.seqerr, b.cmderr)) (exec .finish State.reset) = some (false, true, false) ∧
    look (fun b => (b.ovf, b.seqerr, b.cmderr)) (exec (.cmdRsv 5) State.reset) = some (false, false, true) := by decide

/-- A byte string for each clause; the one past the limit is a replicate, which is not evaluated. -/
theorem witness_WholeStreamVerdict :
    ([Instr.feedb 1].flatMap feedBytes).length < 4 ∧
    (∃ feeds : List Instr, (∀ i ∈ feeds, isFeed i = true) ∧ 4 + 0xFFFFFFFF < (feeds.flatMap feedBytes).length) ∧
    (([Instr.feedw 0x52753174].flatMap feedBytes).take 4).all isAlpha = false ∧
    (([Instr.feedw 0x49454E44].flatMap feedBytes).take 4).all isAlpha = true ∧
    crc32 ([Instr.feedw 0x49454E44].flatMap feedBytes) ≠ Block.reset.crcRx ∧
    crc32 ([Instr.feedw 0x49454E44].flatMap feedBytes) = 0xAE426082 := by
  refine ⟨by decide, ⟨List.replicate (5 + 0xFFFFFFFF) (.feedb 0), ?_, ?_⟩, by decide, by decide,
    by decide +kernel, by decide +kernel⟩
  · intro i hi
    rw [List.eq_of_mem_replicate hi]
    rfl
  · have : ∀ n : Nat, ((List.replicate n (Instr.feedb 0)).flatMap feedBytes).length = n := by
      intro n
      induction n with
      | zero => rfl
      | succ n ih => simp [List.replicate_succ, feedBytes] at ih ⊢
    rw [this]
    omega

theorem witness_GenerateReturnsCrcAndLength : ([] : List Byte).length ≤ 0xFFFFFFFF := by decide

theorem witness_RegistersRevealWholeState : ∀ r : Reg, endOfP1.readReg r = endOfP1.readReg r := fun _ => rfl

theorem witness_StepRunsDecodedTransaction :
    (pending sOvf 0x8301020304).script = .txn 0x8301020304 :: [] ∧
    decode 0x8301020304 = .ok (.feedw 0x01020304) ∧ (∀ e ∈ ([] : List HostEvent), e.Admissible) :=
  ⟨rfl, rfl, by simp⟩

/-- An admissible script, an empty one, and the two kinds that are refused, one of them behind a good event. -/
theorem witness_StepsExistExactlyForAdmissibleScripts :
    (∃ t, step (pending Block.reset 0x8000000001) = .next t) ∧ State.reset.script = [] ∧
    step { State.reset with script := [.txn 0x8000000001, .txn 0x9000000000] } = .refused .notATransaction ∧
    step { State.reset with script := [.reset, .cutOff 0x0500000000] } = .refused .cutOffTransaction :=
  ⟨⟨_, rfl⟩, rfl, rfl, rfl⟩

theorem witness_ResultsKeptUntilRestart :
    (∃ s t : State, s.block.state = .done ∧ step s = .next t ∧ s.NextRuns .finish) ∧
    (∃ s t : State, step s = .next t ∧ s.NextRuns .startChk ∧ isRestart .startChk) ∧
    (∃ s t : State, step s = .next t ∧ s.NextResets) :=
  ⟨⟨pending endOfP1 0x8000000003, _, rfl, rfl, nextRuns_pending rfl⟩,
    ⟨pending endOfP1 0x8000000002, _, rfl, nextRuns_pending rfl, .inr (.inl rfl)⟩,
    ⟨{ withBlock endOfP1 with script := [.reset] }, _, rfl, ⟨[], rfl⟩⟩⟩

end Sys2Proof.Machine
end

section
/-! Laws of the CRC update (R15 to R18): it is linear over XOR and loses nothing, and a register whose low bits are
zero only moves right. The obligations of 00_scope.md, section 7, follow. -/

namespace Sys2Proof.Machine

/-! ### One shift, and several -/

/-- The shift as a sum of two linear maps of the register. -/
theorem crcShift_eq (a : Word) : crcShift a = (a >>> 1) ^^^ (if a.getLsbD 0 then Config.polyR else 0) := by
  unfold crcShift
  split <;> simp

theorem crcShift_xor (a a' : Word) : crcShift (a ^^^ a') = crcShift a ^^^ crcShift a' := by
  have hpoly : ∀ c c' : Bool, (if (c ^^ c') = true then Config.polyR else 0) =
      (if c = true then Config.polyR else 0) ^^^ (if c' = true then Config.polyR else 0) := by decide
  simp only [crcShift_eq, BitVec.ushiftRight_xor_distrib, BitVec.getLsbD_xor, hpoly]
  ac_rfl

/-- The top bit after a shift is the bit that fell out, since POLY_R has its top bit set. -/
theorem crcShift_getLsbD_top (a : Word) : (crcShift a).getLsbD 31 = a.getLsbD 0 := by
  have hpoly : Config.polyR.getLsbD 31 = true := by decide
  rw [crcShift_eq, BitVec.getLsbD_xor, BitVec.getLsbD_ushiftRight]
  cases a.getLsbD 0 <;> simp [hpoly]

/-- A word is known from its bit 0 and the bits above it. -/
theorem eq_of_getLsbD_zero_of_ushiftRight_one {a a' : Word} (h0 : a.getLsbD 0 = a'.getLsbD 0)
    (h : a >>> 1 = a' >>> 1) : a = a' := by
  refine BitVec.eq_of_getLsbD_eq fun i _ => ?_
  cases i with
  | zero => exact h0
  | succ i => simpa [Nat.add_comm] using congrArg (fun x : Word => x.getLsbD i) h

theorem crcShift_injective : Function.Injective crcShift := by
  intro a a' h
  have h0 : a.getLsbD 0 = a'.getLsbD 0 := by
    rw [← crcShift_getLsbD_top, h, crcShift_getLsbD_top]
  rw [crcShift_eq, crcShift_eq, h0] at h
  exact eq_of_getLsbD_zero_of_ushiftRight_one h0 ((BitVec.xor_left_inj _).1 h)

theorem crcShifts_eq_iterate (n : Nat) (a : Word) : crcShifts n a = crcShift^[n] a := by
  induction n generalizing a with
  | zero => rfl
  | succ n ih => exact ih (crcShift a)

theorem crcShifts_injective (n : Nat) : Function.Injective (crcShifts n) := by
  have h : crcShifts n = crcShift^[n] := funext (crcShifts_eq_iterate n)
  exact h ▸ crcShift_injective.iterate n

theorem crcShifts_xor (n : Nat) (a a' : Word) : crcShifts n (a ^^^ a') = crcShifts n a ^^^ crcShifts n a' := by
  induction n generalizing a a' with
  | zero => rfl
  | succ n ih => rw [crcShifts, crcShift_xor, ih]; rfl

/-- No 1 falls out of a register whose low bits are zero, so the constant is never added. -/
theorem crcShifts_of_low_zero {n : Nat} {a : Word} (h : ∀ i < n, a.getLsbD i = false) : crcShifts n a = a >>> n := by
  induction n generalizing a with
  | zero => simp [crcShifts]
  | succ n ih =>
    have hshift : crcShift a = a >>> 1 := by rw [crcShift, h 0 n.succ_pos]; rfl
    have hlow : ∀ i < n, (a >>> 1).getLsbD i = false := by
      intro i hi
      rw [BitVec.getLsbD_ushiftRight]
      exact h (1 + i) (by omega)
    rw [crcShifts, hshift, ih hlow, ← BitVec.shiftRight_add, Nat.add_comm]

/-! ### One byte, and several -/

theorem crcByte_zero_zero : crcByte 0 0 = 0 := by decide

/-- The register update is linear in the pair of register and byte (R17 item 3). -/
theorem crcByte_xor (a a' : Word) (b b' : Byte) :
    crcByte (a ^^^ a') (b ^^^ b') = crcByte a b ^^^ crcByte a' b' := by
  have hxor : (a ^^^ a') ^^^ (b ^^^ b').setWidth 32 = (a ^^^ b.setWidth 32) ^^^ (a' ^^^ b'.setWidth 32) := by
    rw [BitVec.setWidth_xor]
    ac_rfl
  rw [crcByte, hxor, crcShifts_xor]
  rfl

theorem crcByte_left_injective (b : Byte) : Function.Injective fun a => crcByte a b :=
  fun _ _ h => (BitVec.xor_left_inj _).1 (crcShifts_injective 8 h)

theorem crcByte_right_injective (a : Word) : Function.Injective (crcByte a) := by
  intro b b' h
  have hwide : b.setWidth 32 = b'.setWidth 32 := (BitVec.xor_right_inj _).1 (crcShifts_injective 8 h)
  rw [← lowByte_setWidth b, hwide, lowByte_setWidth]

theorem crcFold_left_injective (m : List Byte) : Function.Injective fun a => crcFold a m := by
  induction m with
  | nil => exact fun _ _ h => h
  | cons x m ih => exact fun _ _ h => crcByte_left_injective x (ih h)

/-- A word is its upper 24 bits and its low byte. -/
theorem word_eq_high_xor_lowByte (x : Word) : x = ((x >>> 8) <<< 8) ^^^ (lowByte x).setWidth 32 := by
  refine BitVec.eq_of_getLsbD_eq fun i hi => ?_
  by_cases h8 : i < 8
  · simp [lowByte, hi, h8]
  · simp [lowByte, hi, h8, show 8 + (i - 8) = i by omega]

/-- The byte reaches only the low 8 bits of the register before the shifts. -/
theorem xor_byte_ushiftRight_eight (acc : Word) (b : Byte) : (acc ^^^ b.setWidth 32) >>> 8 = acc >>> 8 := by
  refine BitVec.eq_of_getLsbD_eq fun i hi => ?_
  simp

/-- The eight shifts move the upper 24 bits down unchanged and send the low byte through the table (R18). -/
theorem crcShifts_eight_eq_table (x : Word) : crcShifts 8 x = (x >>> 8) ^^^ crcTable (lowByte x) := by
  have hlow : ∀ i < 8, ((x >>> 8) <<< 8).getLsbD i = false := by
    intro i hi
    simp [hi]
  have hhigh : ((x >>> 8) <<< 8) >>> 8 = x >>> 8 := by
    rw [← xor_byte_ushiftRight_eight _ (lowByte x), ← word_eq_high_xor_lowByte]
  have hbyte : crcShifts 8 ((lowByte x).setWidth 32) = crcTable (lowByte x) := by
    simp [crcTable, crcByte]
  calc crcShifts 8 x
      = crcShifts 8 (((x >>> 8) <<< 8) ^^^ (lowByte x).setWidth 32) := by rw [← word_eq_high_xor_lowByte]
    _ = (((x >>> 8) <<< 8) >>> 8) ^^^ crcTable (lowByte x) := by
        rw [crcShifts_xor, crcShifts_of_low_zero hlow, hbyte]
    _ = (x >>> 8) ^^^ crcTable (lowByte x) := by rw [hhigh]

theorem crcByte_eq_crcByteByTable (acc : Word) (b : Byte) : crcByte acc b = crcByteByTable acc b := by
  rw [crcByte, crcShifts_eight_eq_table, xor_byte_ushiftRight_eight]
  rfl

/-! ### The obligations of sections 6 and 7 of 00_scope.md -/

/-- Settles O5. -/
theorem crcByteIsLinear : Obligations.CrcByteIsLinear := by
  refine ⟨fun a a' b b' => ?_, crcByte_zero_zero⟩
  rw [crcByte_xor, crcByte_zero_zero]
  exact BitVec.xor_zero.symm

/-- Settles O6: the bytes after the changed one, the changed byte's own update and the final XOR are each injective. -/
theorem oneByteChangeAlwaysChangesCrc : Obligations.OneByteChangeAlwaysChangesCrc := by
  intro before after b b' hne hcrc
  have hfold := crcFinal_injective hcrc
  rw [crcFold_append, crcFold_append, crcFold_cons, crcFold_cons] at hfold
  exact hne (crcByte_right_injective _ (crcFold_left_injective after hfold))

/-- Settles O7. -/
theorem tableDrivenCrcEqualsBitSerial : Obligations.TableDrivenCrcEqualsBitSerial := by
  refine ⟨crcByte_eq_crcByteByTable, fun acc m => ?_⟩
  have h : crcByteByTable = crcByte := funext₂ fun a b => (crcByte_eq_crcByteByTable a b).symm
  rw [h]

/-- Settles O3. -/
theorem crcByteIsEightReflectedShifts : Obligations.CrcByteIsEightReflectedShifts :=
  fun acc b => crcShifts_eq_iterate 8 (acc ^^^ b.setWidth 32)

/-- Settles O4. -/
theorem crcFoldsBytesFirstToLast : Obligations.CrcFoldsBytesFirstToLast := by
  refine ⟨fun _ => rfl, fun _ => rfl, fun t d => ?_⟩
  rw [crc32, crcFold_append]
  rfl

end Sys2Proof.Machine
end

section
/-! Letter case and the tag properties (R10 to R13). -/

namespace Sys2Proof.Machine

theorem isUpper_iff (b : Byte) : isUpper b = true ↔ 0x41 ≤ b.toNat ∧ b.toNat ≤ 0x5A := by
  simp [isUpper, BitVec.le_def]

theorem isLower_iff (b : Byte) : isLower b = true ↔ 0x61 ≤ b.toNat ∧ b.toNat ≤ 0x7A := by
  simp [isLower, BitVec.le_def]

theorem isAlpha_iff (b : Byte) : isAlpha b = true ↔ isUpper b = true ∨ isLower b = true := Bool.or_eq_true_iff

theorem isAlpha_eq_false_iff (b : Byte) : isAlpha b = false ↔ isUpper b = false ∧ isLower b = false :=
  Bool.or_eq_false_iff

theorem tagAlpha_iff (t : Tag) :
    tagAlpha t = true ↔ isAlpha t.t0 = true ∧ isAlpha t.t1 = true ∧ isAlpha t.t2 = true ∧ isAlpha t.t3 = true := by
  simp only [tagAlpha, Bool.and_eq_true, and_assoc]

theorem tagValid_iff (t : Tag) : tagValid t = true ↔ tagAlpha t = true ∧ tagReservedOk t = true := Bool.and_eq_true_iff

/-- Settles O1. -/
theorem letterCaseIsByByteRange : Obligations.LetterCaseIsByByteRange :=
  fun b => ⟨isUpper_iff b, isLower_iff b, isAlpha_iff b, (isAlpha_eq_false_iff b).1⟩

/-- Settles O2. -/
theorem tagPropertiesFollowLetterCase : Obligations.TagPropertiesFollowLetterCase :=
  fun _ _ _ _ => ⟨tagAlpha_iff _, rfl, rfl, rfl, rfl, tagValid_iff _⟩

end Sys2Proof.Machine
end

section
/-! The decoder's answers act as the register map says (R8, R38, R93): a decoded write has the effect of its slot, and
a decoded read returns its slot's register. -/

namespace Sys2Proof.Machine

/-! ### Decoded writes -/

theorem readTarget_decodeCommand (w : Word) : readTarget (decodeCommand w) = none := by
  rcases command_cases w with rfl | rfl | rfl | rfl | rfl | h
  iterate 5 rfl
  rw [decodeCommand_reserved h]; rfl

theorem readTarget_decodeWrite (n : Slot) (w : Word) : readTarget (decodeWrite n w) = none := by
  rcases slot_cases n with rfl | rfl | rfl | rfl | rfl | rfl | rfl | rfl | h
  · exact readTarget_decodeCommand w
  iterate 7 rfl
  rw [decodeWrite_reserved h]; rfl

theorem Block.command_reserved {w : Word} (h : isReservedCommand w = true) (b : Block) : b.command w = b.setCmdErr := by
  rw [Block.command, if_neg (isReservedCommand_ne h 0 (by decide)), if_neg (isReservedCommand_ne h 1 (by decide)),
    if_neg (isReservedCommand_ne h 2 (by decide)), if_neg (isReservedCommand_ne h 3 (by decide)),
    if_neg (isReservedCommand_ne h 4 (by decide))]

theorem blockEffect_decodeCommand (w : Word) (b : Block) : blockEffect (decodeCommand w) b = b.command w := by
  rcases command_cases w with rfl | rfl | rfl | rfl | rfl | h
  iterate 5 rfl
  rw [decodeCommand_reserved h, Block.command_reserved h]; rfl

theorem slotReg_reserved {n : Slot} (h : isReservedSlot n = true) : slotReg n = .reserved := by
  revert n
  decide

theorem blockEffect_decodeWrite (n : Slot) (w : Word) (b : Block) :
    blockEffect (decodeWrite n w) b = b.writeReg (slotReg n) w := by
  rcases slot_cases n with rfl | rfl | rfl | rfl | rfl | rfl | rfl | rfl | h
  · exact blockEffect_decodeCommand w b
  iterate 7 rfl
  rw [decodeWrite_reserved h, slotReg_reserved h]; rfl

theorem exec_decodeWrite (n : Slot) (w : Word) (s : State) : exec (decodeWrite n w) s = .next (busWrite n w s) := by
  rw [exec_write (readTarget_decodeWrite n w), blockEffect_decodeWrite]
  rfl

/-! ### Decoded reads -/

theorem readTarget_decodeRead (n : Slot) : readTarget (decodeRead n) = some (slotReg n) := by
  rcases slot_cases n with rfl | rfl | rfl | rfl | rfl | rfl | rfl | rfl | h
  iterate 8 rfl
  rw [decodeRead_reserved h, slotReg_reserved h]; rfl

theorem exec_decodeRead (n : Slot) (s : State) : exec (decodeRead n) s = .next (busRead n s).2 :=
  exec_read (readTarget_decodeRead n) s

/-! ### The step of a pending transaction -/

/-- A transaction at the head of an admissible script runs the instruction its key spells (R93, R236). -/
theorem step_txn {s : State} {k : Key} {rest : List HostEvent} {i : Instr} (hs : s.script = .txn k :: rest)
    (hrest : ∀ e ∈ rest, e.Admissible) (hd : decode k = .ok i) : step s = exec i { s with script := rest } := by
  have hadm : scriptRefusal (.txn k :: rest) = none :=
    scriptRefusal_cons_eq_none.2 ⟨HostEvent.refusal_txn_of_ok hd, scriptRefusal_eq_none_iff.2 hrest⟩
  simp [step, fetchEvent, hs, hadm, runEvent, hd]

/-- Settles O30. -/
theorem keysActAsBusTransactions : Obligations.KeysActAsBusTransactions := by
  intro s k rest hs hrest hpad
  have hstep := step_txn hs hrest (decode_eq_ok_iff.2 ⟨hpad, rfl⟩)
  constructor
  · intro hwe
    rw [hstep, if_pos hwe, exec_decodeWrite]
  · intro hwe
    rw [hstep, if_neg (by simp [hwe]), exec_decodeRead]

end Sys2Proof.Machine
end

section
/-! The tag bytes (R33), the counters' increments, and what FINISH leaves alone. -/

namespace Sys2Proof.Machine

theorem Tag.bytes_length (t : Tag) : t.bytes.length = 4 := rfl

/-- TAGB[i] <- x writes byte i of the tag and no other; there is none to write for i of 4 and above. -/
theorem Tag.bytes_set (t : Tag) (i : BitVec 3) (x : Byte) : (t.set i x).bytes = t.bytes.set i.toNat x := by
  have hi : i = 0 ∨ i = 1 ∨ i = 2 ∨ i = 3 ∨ i = 4 ∨ i = 5 ∨ i = 6 ∨ i = 7 := by revert i; decide
  rcases hi with rfl | rfl | rfl | rfl | rfl | rfl | rfl | rfl <;> rfl

theorem tagAlpha_eq_all_bytes (t : Tag) : tagAlpha t = t.bytes.all isAlpha := by
  simp [tagAlpha, Tag.bytes, Bool.and_assoc]

theorem tagcnt_succ_toNat {n : BitVec 3} (h : n < 4) : (n + 1).toNat = n.toNat + 1 := by bv_omega

theorem count_succ_toNat {c : Word} (h : c ≠ Config.maxCount) : (c + 1).toNat = c.toNat + 1 := by
  unfold Config.maxCount at h
  bv_omega

/-- The byte a TAG-state feed takes joins the tag bytes absorbed so far. -/
theorem Block.takeTagByte_tagPrefix {b : Block} (h : b.tagcnt < 4) (x : Byte) :
    (b.takeTagByte x).tagPrefix = b.tagPrefix ++ [x] := by
  have hlt : b.tagcnt.toNat < b.tagb.bytes.length := BitVec.lt_def.1 h
  rw [Block.tagPrefix, Block.tagPrefix, Block.takeTagByte_tagb, Block.takeTagByte_tagcnt, Tag.bytes_set,
    tagcnt_succ_toNat h, List.set_eq_take_append_cons_drop, if_pos hlt]
  simp [List.take_append, hlt.le]

/-- The fourth tag byte moves STATE to DATA. -/
theorem Block.takeTagByte_state_last {b : Block} (h : b.tagcnt + 1 = 4) (x : Byte) :
    (b.takeTagByte x).state = .data := if_pos h

theorem Block.takeTagByte_state_not_last {b : Block} (h : b.tagcnt + 1 ≠ 4) (x : Byte) :
    (b.takeTagByte x).state = b.state := if_neg h

/-! ### FINISH writes STATE and RESULT, or SEQERR (R126) -/

@[simp] theorem Block.finish_mode (b : Block) : b.finish.mode = b.mode := by
  rcases b.finish_cases with ⟨-, h⟩ | ⟨-, h⟩ <;> simp [h]

@[simp] theorem Block.finish_tagcnt (b : Block) : b.finish.tagcnt = b.tagcnt := by
  rcases b.finish_cases with ⟨-, h⟩ | ⟨-, h⟩ <;> simp [h]

@[simp] theorem Block.finish_tagb (b : Block) : b.finish.tagb = b.tagb := by
  rcases b.finish_cases with ⟨-, h⟩ | ⟨-, h⟩ <;> simp [h]

@[simp] theorem Block.finish_count (b : Block) : b.finish.count = b.count := by
  rcases b.finish_cases with ⟨-, h⟩ | ⟨-, h⟩ <;> simp [h]

@[simp] theorem Block.finish_crcRx (b : Block) : b.finish.crcRx = b.crcRx := by
  rcases b.finish_cases with ⟨-, h⟩ | ⟨-, h⟩ <;> simp [h]

@[simp] theorem Block.finish_ovf (b : Block) : b.finish.ovf = b.ovf := by
  rcases b.finish_cases with ⟨-, h⟩ | ⟨-, h⟩ <;> simp [h]

@[simp] theorem Block.finish_cmderr (b : Block) : b.finish.cmderr = b.cmderr := by
  rcases b.finish_cases with ⟨-, h⟩ | ⟨-, h⟩ <;> simp [h]

theorem Block.finish_seqerr_of_set {b : Block} (h : b.seqerr = true) : b.finish.seqerr = true := by
  rcases b.finish_cases with ⟨-, hb⟩ | ⟨-, hb⟩ <;> simp [hb, h]

/-! ### What absorbing bytes keeps (R150, R151) -/

/-- absorb moves STATE only from TAG to DATA, with the fourth tag byte. -/
theorem Block.absorbAll_state (b : Block) (xs : List Byte) :
    (b.absorbAll xs).state = b.state ∨
    ((b.absorbAll xs).state = .data ∧ b.state = .tag ∧ (b.absorbAll xs).tagcnt = 4) := by
  refine Block.absorbAll_keeps
    (P := fun c => c.state = b.state ∨ (c.state = .data ∧ b.state = .tag ∧ c.tagcnt = 4)) ?_ xs (.inl rfl)
  intro c x hc
  rcases c.absorb_cases x with ⟨-, h⟩ | ⟨ht, h⟩ | ⟨-, -, h⟩ | ⟨-, -, h⟩
  · simpa [h] using hc
  · have hb : b.state = .tag := by
      rcases hc with hc | ⟨-, hb, -⟩
      · rw [← hc, ht]
      · exact hb
    by_cases h4 : c.tagcnt + 1 = 4
    · exact .inr ⟨by rw [h, Block.takeTagByte_state_last h4], hb, by rw [h, Block.takeTagByte_tagcnt, h4]⟩
    · exact .inl (by rw [h, Block.takeTagByte_state_not_last h4, ht, hb])
  · simpa [h] using hc
  · simpa [h] using hc

theorem Block.absorbAll_ovf_of_set {b : Block} (xs : List Byte) (h : b.ovf = true) : (b.absorbAll xs).ovf = true := by
  refine Block.absorbAll_keeps (P := fun c => c.ovf = true) (fun c x hc => ?_) xs h
  rcases c.absorb_cases x with ⟨-, h⟩ | ⟨-, h⟩ | ⟨-, -, h⟩ | ⟨-, -, h⟩ <;> simp [h, hc]

theorem Block.absorbAll_seqerr_of_set {b : Block} (xs : List Byte) (h : b.seqerr = true) :
    (b.absorbAll xs).seqerr = true := by
  refine Block.absorbAll_keeps (P := fun c => c.seqerr = true) (fun c x hc => ?_) xs h
  rcases c.absorb_cases x with ⟨-, h⟩ | ⟨-, h⟩ | ⟨-, -, h⟩ | ⟨-, -, h⟩ <;> simp [h, hc]

/-- Past the fourth tag byte the tag stays as it is, and COUNT only grows. -/
theorem Block.absorbAll_tag_frozen {b : Block} (xs : List Byte) (hb : b.state = .data ∨ b.state = .done) :
    (b.absorbAll xs).tagb = b.tagb ∧ (b.absorbAll xs).tagcnt = b.tagcnt ∧ b.count ≤ (b.absorbAll xs).count := by
  refine (Block.absorbAll_keeps
    (P := fun c => (c.state = .data ∨ c.state = .done) ∧ c.tagb = b.tagb ∧ c.tagcnt = b.tagcnt ∧ b.count ≤ c.count)
    ?_ xs ⟨hb, rfl, rfl, BitVec.le_refl _⟩).2
  rintro c x ⟨hs, htag, hcnt, hle⟩
  rcases c.absorb_cases x with ⟨-, h⟩ | ⟨ht, -⟩ | ⟨-, -, h⟩ | ⟨-, hne, h⟩
  · simpa [h] using And.intro hs ⟨htag, hcnt, hle⟩
  · simp [ht] at hs
  · simpa [h] using And.intro hs ⟨htag, hcnt, hle⟩
  · rw [h]
    refine ⟨hs, htag, hcnt, ?_⟩
    rw [Block.takeDataByte_count, BitVec.le_def, count_succ_toNat hne]
    exact Nat.le_succ_of_le (BitVec.le_def.1 hle)

end Sys2Proof.Machine
end

section
/-! What one step can do to the block, said once (R236): every law of the steps below is a case analysis of it. -/

namespace Sys2Proof.Machine

/-- The blocks a step of s can leave, each with what it ran. -/
inductive StepEffect (s : State) : Block → Prop where
  /-- NOP, a read or an ignored write. -/
  | keeps : StepEffect s s.block
  | resets (h : s.NextResets) : StepEffect s Block.reset
  | startsGen (h : s.NextRuns .startGen) : StepEffect s (s.block.start .gen)
  | startsChk (h : s.NextRuns .startChk) : StepEffect s (s.block.start .chk)
  | aborts (h : s.NextRuns .abort) : StepEffect s s.block.abort
  | finishes (h : s.NextRuns .finish) : StepEffect s s.block.finish
  | refusesCommand (v : Word) (h : s.NextRuns (.cmdRsv v)) : StepEffect s s.block.setCmdErr
  | setsCrcRx (v : Word) (h : s.NextRuns (.setrx v)) : StepEffect s (s.block.setCrcRx v)
  | feeds (i : Instr) (h : s.NextRuns i) (hi : isFeed i = true) : StepEffect s (s.block.absorbAll (feedBytes i))

theorem blockEffect_stepEffect {s : State} {i : Instr} (h : s.NextRuns i) :
    StepEffect s (blockEffect i s.block) := by
  cases i with
  | startGen => exact .startsGen h
  | startChk => exact .startsChk h
  | abort => exact .aborts h
  | finish => exact .finishes h
  | cmdRsv v => exact .refusesCommand v h
  | setrx v => exact .setsCrcRx v h
  | feedb x => exact .feeds _ h rfl
  | feedw w => exact .feeds _ h rfl
  | _ => exact .keeps

theorem step_stepEffect {s t : State} (h : step s = .next t) : StepEffect s t.block := by
  rcases step_next_block h with ⟨i, hi, hb⟩ | ⟨hr, hb⟩
  · rw [hb]
    exact blockEffect_stepEffect hi
  · rw [hb]
    exact .resets hr

/-! ### The next event says which effect it is -/

theorem State.NextRuns.unique {s : State} {i j : Instr} (hi : s.NextRuns i) (hj : s.NextRuns j) : i = j := by
  obtain ⟨k, rest, hs, hk⟩ := hi
  obtain ⟨k', rest', hs', hk'⟩ := hj
  cases hs.symm.trans hs'
  cases hk.symm.trans hk'
  rfl

theorem State.NextRuns.not_nextResets {s : State} {i : Instr} (hi : s.NextRuns i) : ¬ s.NextResets := by
  obtain ⟨k, rest, hs, -⟩ := hi
  rintro ⟨rest', hs'⟩
  cases hs.symm.trans hs'

theorem step_block_of_nextRuns {s t : State} {i : Instr} (h : step s = .next t) (hi : s.NextRuns i) :
    t.block = blockEffect i s.block := by
  rcases step_next_block h with ⟨j, hj, hb⟩ | ⟨hr, -⟩
  · rw [hb, hj.unique hi]
  · exact absurd hr hi.not_nextResets

theorem step_block_of_nextResets {s t : State} (h : step s = .next t) (hr : s.NextResets) : t.block = Block.reset := by
  rcases step_next_block h with ⟨j, hj, -⟩ | ⟨-, hb⟩
  · exact absurd hr hj.not_nextResets
  · exact hb

/-- Reset() at the head of an admissible script (R230, R236). -/
theorem step_reset {s : State} {rest : List HostEvent} (hs : s.script = .reset :: rest)
    (hrest : ∀ e ∈ rest, e.Admissible) : step s = .next (takeReset { s with script := rest }) := by
  have hadm : scriptRefusal (.reset :: rest) = none :=
    scriptRefusal_cons_eq_none.2 ⟨rfl, scriptRefusal_eq_none_iff.2 hrest⟩
  simp [step, fetchEvent, hs, hadm, runEvent]

end Sys2Proof.Machine
end

section
/-! The invariants of the reachable states (R33, R37): reset has them, each effect keeps them, so every run does. -/

namespace Sys2Proof.Machine

/-- What START, ABORT and reset leave meets the invariants: nothing absorbed, no flag set, no verdict. -/
theorem Block.Inv.of_cleared {b : Block} (hstate : b.state = .idle ∨ b.state = .tag) (hcnt : b.tagcnt = 0)
    (htag : b.tagb = ⟨0, 0, 0, 0⟩) (hacc : b.acc = 0xFFFFFFFF) (hcount : b.count = 0) (hovf : b.ovf = false)
    (hseq : b.seqerr = false) (hres : b.result = .none) : b.Inv where
  idle _ := ⟨hcnt, hcount, hacc, htag, hovf, hres⟩
  tag _ := ⟨by rw [hcnt]; decide, hcount, hovf, hres⟩
  data h := by simp [h] at hstate
  done := by rcases hstate with h | h <;> simp [h, hres]
  ovf h := by simp [hovf] at h
  tagcnt := by rw [hcnt]; decide
  acc := ⟨[], by simp [hcount], by simp [hacc, Block.tagPrefix, hcnt]⟩
  seqerr _ := hseq
  unfilled n _ hn := by
    rw [htag]
    interval_cases n <;> rfl

theorem Block.reset_inv : Block.reset.Inv := .of_cleared (.inl rfl) rfl rfl rfl rfl rfl rfl rfl

theorem Block.start_inv (m : Mode) (b : Block) : (b.start m).Inv := .of_cleared (.inr rfl) rfl rfl rfl rfl rfl rfl rfl

theorem Block.abort_inv (b : Block) : b.abort.Inv := .of_cleared (.inl rfl) rfl rfl rfl rfl rfl rfl rfl

/-! ### Each update of the block -/

section
variable {b : Block} (h : b.Inv)
include h

theorem Block.setCmdErr_inv : b.setCmdErr.Inv := { h with }

theorem Block.setCrcRx_inv (v : Word) : (b.setCrcRx v).Inv := { h with }

/-- SEQERR may be set outside a computation only (R37 item 8). -/
theorem Block.setSeqErr_inv (hs : b.state = .idle ∨ b.state = .done) : b.setSeqErr.Inv :=
  { h with seqerr := fun h' => by rcases hs with hs | hs <;> simp [hs] at h' }

theorem Block.setOvf_inv (hs : b.state = .data) (hc : b.count = Config.maxCount) : b.setOvf.Inv :=
  { h with
    idle := fun h' => by simp [hs] at h'
    tag := fun h' => by simp [hs] at h'
    ovf := fun _ => ⟨hc, (h.data hs).1⟩ }

theorem Block.takeTagByte_inv (hs : b.state = .tag) (x : Byte) : (b.takeTagByte x).Inv := by
  obtain ⟨hcnt, hcount, hovf, hres⟩ := h.tag hs
  obtain ⟨d, hd, hacc⟩ := h.acc
  have hsucc := tagcnt_succ_toNat hcnt
  have hdnil : d = [] := List.eq_nil_of_length_eq_zero (by simp [hd, hcount])
  have hstate : (b.takeTagByte x).state = .data ∧ b.tagcnt + 1 = 4 ∨
      (b.takeTagByte x).state = .tag ∧ b.tagcnt + 1 ≠ 4 := by
    by_cases h4 : b.tagcnt + 1 = 4
    · exact .inl ⟨Block.takeTagByte_state_last h4 x, h4⟩
    · exact .inr ⟨by rw [Block.takeTagByte_state_not_last h4, hs], h4⟩
  constructor
  case idle =>
    intro h'
    simp [h', -Block.takeTagByte_state] at hstate
  case tag =>
    intro h'
    have h4 : b.tagcnt + 1 ≠ 4 := by simpa [h', -Block.takeTagByte_state] using hstate
    refine ⟨?_, hcount, hovf, hres⟩
    rw [Block.takeTagByte_tagcnt]
    bv_omega
  case data =>
    intro h'
    exact ⟨by simpa [h', -Block.takeTagByte_state] using hstate, hres⟩
  case done =>
    rcases hstate with ⟨h', -⟩ | ⟨h', -⟩ <;> simp [h', hres, -Block.takeTagByte_state]
  case ovf =>
    simp [hovf]
  case tagcnt =>
    rw [Block.takeTagByte_tagcnt]
    bv_omega
  case acc =>
    refine ⟨[], by simp [hcount], ?_⟩
    rw [Block.takeTagByte_tagPrefix hcnt, List.append_nil, crcFold_concat, Block.takeTagByte_acc, hacc, hdnil,
      List.append_nil]
  case seqerr =>
    intro _
    exact h.seqerr (.inl hs)
  case unfilled =>
    intro n hn hn4
    rw [Block.takeTagByte_tagcnt, hsucc] at hn
    rw [Block.takeTagByte_tagb, Tag.bytes_set, List.getElem?_set_ne (by omega)]
    exact h.unfilled n (by omega) hn4

theorem Block.takeDataByte_inv (hs : b.state = .data) (hc : b.count ≠ Config.maxCount) (x : Byte) :
    (b.takeDataByte x).Inv := by
  obtain ⟨d, hd, hacc⟩ := h.acc
  exact { h with
    idle := fun h' => by simp [hs] at h'
    tag := fun h' => by simp [hs] at h'
    ovf := fun ho => absurd (h.ovf ho).1 hc
    acc := by
      refine ⟨d ++ [x], by rw [List.length_append, hd]; exact (count_succ_toNat hc).symm, ?_⟩
      show crcByte b.acc x = crcFold _ (b.tagPrefix ++ (d ++ [x]))
      rw [← List.append_assoc, crcFold_concat, hacc] }

theorem Block.absorb_inv (x : Byte) : (b.absorb x).Inv := by
  rcases b.absorb_cases x with ⟨hs, hb⟩ | ⟨hs, hb⟩ | ⟨hs, hc, hb⟩ | ⟨hs, hc, hb⟩ <;> rw [hb]
  · exact Block.setSeqErr_inv h hs
  · exact Block.takeTagByte_inv h hs x
  · exact Block.setOvf_inv h hs hc
  · exact Block.takeDataByte_inv h hs hc x

theorem Block.absorbAll_inv (xs : List Byte) : (b.absorbAll xs).Inv :=
  Block.absorbAll_keeps (P := Block.Inv) (fun _ x hc => Block.absorb_inv hc x) xs h

theorem Block.recordVerdict_inv {r : Result} (hr : r ≠ .none) : (b.recordVerdict r).Inv :=
  { h with
    idle := fun h' => by cases h'
    tag := fun h' => by cases h'
    data := fun h' => by cases h'
    done := by simp [hr]
    seqerr := fun h' => by simp at h' }

theorem Block.finish_inv : b.finish.Inv := by
  rcases b.finish_cases with ⟨-, hb⟩ | ⟨hs, hb⟩ <;> rw [hb]
  · exact Block.recordVerdict_inv h b.finishResult_ne_none
  · exact Block.setSeqErr_inv h hs

end

/-! ### Steps and runs -/

theorem StepEffect.inv {s : State} {c : Block} (h : StepEffect s c) (hs : s.Inv) : c.Inv := by
  cases h with
  | keeps => exact hs
  | resets => exact Block.reset_inv
  | startsGen => exact Block.start_inv .gen _
  | startsChk => exact Block.start_inv .chk _
  | aborts => exact Block.abort_inv _
  | finishes => exact Block.finish_inv hs
  | refusesCommand => exact Block.setCmdErr_inv hs
  | setsCrcRx v => exact Block.setCrcRx_inv hs v
  | feeds i => exact Block.absorbAll_inv hs _

/-- What every step of a machine keeps, every run keeps. -/
theorem run_keeps {M : Host.Core} {P : M.State → Prop} (hP : ∀ s t, P s → M.step s = .next t → P t) (n : Nat)
    {s t : M.State} (hs : P s) (h : M.run n s = .next t) : P t := by
  induction n generalizing s with
  | zero => cases h; exact hs
  | succ n ih =>
    rw [Host.Core.run] at h
    split at h
    · rename_i s' hstep
      exact ih (hP s s' hs hstep) h
    · cases h
    · cases h

/-- Settles O16. -/
theorem resetStateMeetsReachableRules : Obligations.ResetStateMeetsReachableRules := Block.reset_inv

/-- Settles O17, by the effect of the step: each of them keeps the invariant. -/
theorem stepKeepsReachableRules : Obligations.StepKeepsReachableRules :=
  fun _ _ hs h => (step_stepEffect h).inv hs

/-- Settles O18, by induction on the number of steps from O16 and O17. -/
theorem runsStayWithinReachableRules : Obligations.RunsStayWithinReachableRules :=
  fun script n _ h => run_keeps (M := Sys2Proof.core) (P := State.Inv) stepKeepsReachableRules n
    (s := { State.reset with script := script }) Block.reset_inv h

end Sys2Proof.Machine
end

section
/-! Laws of the single step (R34 to R36, R51, R151): which effect of a step can change which register, flag or state. -/

namespace Sys2Proof.Machine

variable {s : State} {c : Block}

/-! ### Steps that restart and steps that go on (R243) -/

/-- A step is a reset or a restart, or it goes on with the computation by one of these five effects. -/
theorem StepEffect.restarts_or_continues (h : StepEffect s c) :
    (s.NextResets ∨ ∃ i, s.NextRuns i ∧ isRestart i) ∨
    (c = s.block ∨ c = s.block.finish ∨ c = s.block.setCmdErr ∨ (∃ v, c = s.block.setCrcRx v) ∨
      ∃ xs, c = s.block.absorbAll xs) := by
  cases h with
  | keeps => exact .inr (.inl rfl)
  | resets hr => exact .inl (.inl hr)
  | startsGen hr => exact .inl (.inr ⟨_, hr, .inl rfl⟩)
  | startsChk hr => exact .inl (.inr ⟨_, hr, .inr (.inl rfl)⟩)
  | aborts hr => exact .inl (.inr ⟨_, hr, .inr (.inr rfl)⟩)
  | finishes => exact .inr (.inr (.inl rfl))
  | refusesCommand => exact .inr (.inr (.inr (.inl rfl)))
  | setsCrcRx v => exact .inr (.inr (.inr (.inr (.inl ⟨v, rfl⟩))))
  | feeds i => exact .inr (.inr (.inr (.inr (.inr ⟨feedBytes i, rfl⟩))))

/-! ### Reset (R51) -/

theorem Block.reset_readReg (r : Reg) : Block.reset.readReg r = 0 := by cases r <;> decide

/-- Settles O15. -/
theorem resetEventWritesResetValues : Obligations.ResetEventWritesResetValues := by
  refine ⟨fun s rest hs hrest => ⟨_, step_reset hs hrest, rfl⟩, fun s t r hr h => ?_, Block.reset_readReg⟩
  rw [step_block_of_nextResets h hr, Block.reset_readReg]

/-! ### CRC_RX (R34) -/

theorem StepEffect.crcRx_cases (h : StepEffect s c) :
    c.crcRx = s.block.crcRx ∨ (∃ v, s.NextRuns (.setrx v) ∧ c.crcRx = v) ∨ (s.NextResets ∧ c.crcRx = 0) := by
  cases h with
  | setsCrcRx v hr => exact .inr (.inl ⟨v, hr, rfl⟩)
  | resets hr => exact .inr (.inr ⟨hr, rfl⟩)
  | _ => exact .inl (by simp)

/-- The first byte of a word is its most significant (R7, R74). -/
theorem wordOfBytes_toNat (c0 c1 c2 c3 : Byte) :
    (wordOfBytes c0 c1 c2 c3).toNat = c0.toNat * 2 ^ 24 + c1.toNat * 2 ^ 16 + c2.toNat * 2 ^ 8 + c3.toNat := by
  rw [wordOfBytes, BitVec.toNat_append, BitVec.toNat_append, BitVec.toNat_append,
    ← Nat.shiftLeft_add_eq_or_of_lt c3.isLt, ← Nat.shiftLeft_add_eq_or_of_lt c2.isLt,
    ← Nat.shiftLeft_add_eq_or_of_lt c1.isLt]
  simp only [Nat.shiftLeft_eq]
  omega

/-- Settles O22. -/
theorem onlySetrxAndResetChangeCrcRx : Obligations.OnlySetrxAndResetChangeCrcRx :=
  ⟨fun _ _ h hne => (step_stepEffect h).crcRx_cases.resolve_left hne, wordOfBytes_toNat⟩

/-! ### The sticky flags (R35) -/

theorem StepEffect.ovf_rises (h : StepEffect s c) (hs : s.block.ovf = false) (hc : c.ovf = true) :
    ∃ i, s.NextRuns i ∧ isFeed i = true := by
  cases h with
  | feeds i hr hi => exact ⟨i, hr, hi⟩
  | _ => simp [hs, Block.reset] at hc

theorem StepEffect.seqerr_rises (h : StepEffect s c) (hs : s.block.seqerr = false) (hc : c.seqerr = true) :
    ∃ i, s.NextRuns i ∧ (isFeed i = true ∨ i = .finish) := by
  cases h with
  | feeds i hr hi => exact ⟨i, hr, .inl hi⟩
  | finishes hr => exact ⟨_, hr, .inr rfl⟩
  | _ => simp [hs, Block.reset] at hc

theorem StepEffect.cmderr_rises (h : StepEffect s c) (hs : s.block.cmderr = false) (hc : c.cmderr = true) :
    ∃ v, s.NextRuns (.cmdRsv v) := by
  cases h with
  | refusesCommand v hr => exact ⟨v, hr⟩
  | _ => simp [hs, Block.reset] at hc

/-- A step that is no restart and no reset clears no sticky flag. -/
theorem StepEffect.restarts_or_flags_kept (h : StepEffect s c) :
    (s.NextResets ∨ ∃ i, s.NextRuns i ∧ isRestart i) ∨
    ((s.block.ovf = true → c.ovf = true) ∧ (s.block.seqerr = true → c.seqerr = true) ∧
      (s.block.cmderr = true → c.cmderr = true)) := by
  refine h.restarts_or_continues.imp id ?_
  rintro (rfl | rfl | rfl | ⟨v, rfl⟩ | ⟨xs, rfl⟩)
  · exact ⟨id, id, id⟩
  · exact ⟨by simp, Block.finish_seqerr_of_set, by simp⟩
  · exact ⟨by simp, by simp, by simp⟩
  · exact ⟨by simp, by simp, by simp⟩
  · exact ⟨Block.absorbAll_ovf_of_set xs, Block.absorbAll_seqerr_of_set xs, by simp⟩

/-- A restart clears the three sticky flags (R122, R123, R129). -/
theorem blockEffect_restart_flags {i : Instr} (hi : isRestart i) (b : Block) :
    (blockEffect i b).ovf = false ∧ (blockEffect i b).seqerr = false ∧ (blockEffect i b).cmderr = false := by
  rcases hi with rfl | rfl | rfl <;> exact ⟨rfl, rfl, rfl⟩

/-- Settles O23. -/
theorem stickyFlagsSetAndClearedOnlyByTheirRules : Obligations.StickyFlagsSetAndClearedOnlyByTheirRules := by
  constructor
  · intro s t h
    have he := step_stepEffect h
    refine ⟨he.ovf_rises, he.seqerr_rises, he.cmderr_rises, fun hfall => ?_⟩
    refine he.restarts_or_flags_kept.resolve_right ?_
    rintro ⟨hovf, hseq, hcmd⟩
    rcases hfall with ⟨h1, h0⟩ | ⟨h1, h0⟩ | ⟨h1, h0⟩
    · simp [hovf h1] at h0
    · simp [hseq h1] at h0
    · simp [hcmd h1] at h0
  · rintro s t h (hr | ⟨i, hi, hrestart⟩)
    · rw [step_block_of_nextResets h hr]
      exact ⟨rfl, rfl, rfl⟩
    · rw [step_block_of_nextRuns h hi]
      exact blockEffect_restart_flags hrestart _

/-! ### STATE (R36) -/

theorem StepEffect.state_cases (h : StepEffect s c) :
    c.state = s.block.state ∨
    (c.state = .idle ∧ (s.NextResets ∨ s.NextRuns .abort)) ∨
    (c.state = .tag ∧ (s.NextRuns .startGen ∨ s.NextRuns .startChk)) ∨
    (c.state = .data ∧ s.block.state = .tag ∧ c.tagcnt = 4 ∧ ∃ i, s.NextRuns i ∧ isFeed i = true) ∨
    (c.state = .done ∧ (s.block.state = .tag ∨ s.block.state = .data) ∧ s.NextRuns .finish) := by
  cases h with
  | resets hr => exact .inr (.inl ⟨rfl, .inl hr⟩)
  | aborts hr => exact .inr (.inl ⟨rfl, .inr hr⟩)
  | startsGen hr => exact .inr (.inr (.inl ⟨rfl, .inl hr⟩))
  | startsChk hr => exact .inr (.inr (.inl ⟨rfl, .inr hr⟩))
  | feeds i hr hi =>
    rcases s.block.absorbAll_state (feedBytes i) with hsame | ⟨hd, ht, h4⟩
    · exact .inl hsame
    · exact .inr (.inr (.inr (.inl ⟨hd, ht, h4, i, hr, hi⟩)))
  | finishes hr =>
    rcases s.block.finish_cases with ⟨hs, hb⟩ | ⟨-, hb⟩
    · exact .inr (.inr (.inr (.inr ⟨by simp [hb], hs, hr⟩)))
    · exact .inl (by simp [hb])
  | _ => exact .inl (by simp)

/-- Settles O24. -/
theorem sequencerTakesOnlyItsTransitions : Obligations.SequencerTakesOnlyItsTransitions :=
  fun _ _ h hne => (step_stepEffect h).state_cases.resolve_left hne

/-! ### The complete tag (R33, R151) -/

theorem StepEffect.restarts_or_tag_frozen (h : StepEffect s c) (hs : s.block.state = .data ∨ s.block.state = .done) :
    (s.NextResets ∨ ∃ i, s.NextRuns i ∧ isRestart i) ∨
    (c.tagb = s.block.tagb ∧ c.tagcnt = s.block.tagcnt ∧ c.mode = s.block.mode ∧ s.block.count ≤ c.count) := by
  refine h.restarts_or_continues.imp id ?_
  rintro (rfl | rfl | rfl | ⟨v, rfl⟩ | ⟨xs, rfl⟩)
  · exact ⟨rfl, rfl, rfl, BitVec.le_refl _⟩
  · simp
  · simp
  · simp
  · obtain ⟨htag, hcnt, hle⟩ := Block.absorbAll_tag_frozen xs hs
    exact ⟨htag, hcnt, Block.absorbAll_mode _ _, hle⟩

/-- Settles O43. -/
theorem completeTagIsFrozenUntilRestart : Obligations.CompleteTagIsFrozenUntilRestart :=
  fun _ _ hs h => (step_stepEffect h).restarts_or_tag_frozen hs

end Sys2Proof.Machine
end

section
/-! Whole streams (R31 to R33, R124): what the block holds after START once a byte sequence has been offered, and the
verdict of FINISH on it. -/

namespace Sys2Proof.Machine

/-! ### Running feeds -/

theorem execAll_append {is : List Instr} {s t : State} (js : List Instr) (h : execAll is s = .next t) :
    execAll (is ++ js) s = execAll js t := by
  induction is generalizing s with
  | nil => cases h; rfl
  | cons i is ih =>
    rw [List.cons_append]
    cases hi : exec i s with
    | next u =>
      simp only [execAll, hi] at h ⊢
      exact ih h
    | fault r => simp [execAll, hi] at h
    | refused r => simp [execAll, hi] at h

theorem exec_feed {i : Instr} (hi : isFeed i = true) (s : State) :
    exec i s = .next (s.setBlock (s.block.absorbAll (feedBytes i))) := by
  cases i with
  | feedb x => rfl
  | feedw w => rfl
  | _ => cases hi

/-- Feeds offer their bytes in order, however they are split (R152). -/
theorem execAll_feeds {feeds : List Instr} (h : ∀ i ∈ feeds, isFeed i = true) (s : State) :
    execAll feeds s = .next (s.setBlock (s.block.absorbAll (feeds.flatMap feedBytes))) := by
  induction feeds generalizing s with
  | nil => rfl
  | cons i feeds ih =>
    obtain ⟨hi, hrest⟩ := List.forall_mem_cons.1 h
    rw [execAll, exec_feed hi]
    simp only [ih hrest, List.flatMap_cons, Block.absorbAll_append, State.setBlock_setBlock, State.setBlock_block]

/-- The two starts, each with its mode. -/
theorem exec_start {start : Instr} (h : start = .startGen ∨ start = .startChk) :
    ∃ m, (∀ s, exec start s = .next (s.setBlock (s.block.start m))) ∧
      (start = .startGen ↔ m = .gen) ∧ (start = .startChk ↔ m = .chk) := by
  rcases h with rfl | rfl
  · exact ⟨.gen, fun _ => rfl, by simp, by simp⟩
  · exact ⟨.chk, fun _ => rfl, by simp, by simp⟩

/-! ### The block after START and a byte sequence -/

/-- What a block holds once the bytes bs have been offered after a START in mode m, with v in CRC_RX: tag bytes up to
the fourth, data bytes up to the maximum COUNT, and the others discarded. -/
structure Block.Absorbed (m : Mode) (v : Word) (bs : List Byte) (b : Block) : Prop where
  state : b.state = if bs.length < 4 then .tag else .data
  mode : b.mode = m
  tagcnt : b.tagcnt.toNat = min bs.length 4
  tagb : ∀ n, n < 4 → b.tagb.bytes[n]? = some (bs[n]?.getD 0)
  acc : b.acc = crcFold Config.crcInit (bs.take (4 + 0xFFFFFFFF))
  count : b.count.toNat = min (bs.length - 4) 0xFFFFFFFF
  crcRx : b.crcRx = v
  ovf : b.ovf = true ↔ 0xFFFFFFFF < bs.length - 4

theorem Block.start_absorbed (m : Mode) (b : Block) : (b.start m).Absorbed m b.crcRx [] where
  state := rfl
  mode := rfl
  tagcnt := rfl
  tagb n hn := by interval_cases n <;> rfl
  acc := rfl
  count := rfl
  crcRx := rfl
  ovf := by simp

section
variable {m : Mode} {v : Word} {bs : List Byte} {b : Block} (h : b.Absorbed m v bs)
include h

theorem Block.Absorbed.takeTagByte (hlen : bs.length < 4) (x : Byte) :
    (b.takeTagByte x).Absorbed m v (bs ++ [x]) := by
  have hcnt : b.tagcnt.toNat = bs.length := by have := h.tagcnt; omega
  have hsucc : (b.tagcnt + 1).toNat = bs.length + 1 := by
    rw [tagcnt_succ_toNat (by bv_omega), hcnt]
  constructor
  case mode => exact h.mode
  case crcRx => exact h.crcRx
  case state =>
    rw [List.length_append, List.length_singleton]
    by_cases h4 : b.tagcnt + 1 = 4
    · rw [Block.takeTagByte_state_last h4, if_neg (by bv_omega)]
    · rw [Block.takeTagByte_state_not_last h4, h.state, if_pos hlen, if_pos (by bv_omega)]
  case tagcnt =>
    rw [Block.takeTagByte_tagcnt, hsucc, List.length_append, List.length_singleton]
    omega
  case tagb =>
    intro n hn
    rw [Block.takeTagByte_tagb, Tag.bytes_set, hcnt, List.getElem?_set, Tag.bytes_length, h.tagb n hn]
    by_cases hn' : bs.length = n
    · simp [← hn', hlen]
    · rw [if_neg hn']
      rcases Nat.lt_or_gt_of_ne hn' with hlt | hgt
      · rw [List.getElem?_eq_none (by omega), List.getElem?_eq_none (by simp; omega)]
      · rw [List.getElem?_append_left hgt]
  case acc =>
    rw [Block.takeTagByte_acc, h.acc, List.take_of_length_le (by omega),
      List.take_of_length_le (by simp; omega), crcFold_concat]
  case count =>
    have := h.count
    simp only [Block.takeTagByte_count, List.length_append, List.length_singleton]
    omega
  case ovf =>
    rw [Block.takeTagByte_ovf, h.ovf, List.length_append, List.length_singleton]
    omega

theorem Block.Absorbed.takeDataByte (hlen : 4 ≤ bs.length) (hroom : bs.length < 4 + 0xFFFFFFFF) (x : Byte) :
    (b.takeDataByte x).Absorbed m v (bs ++ [x]) where
  state := by rw [Block.takeDataByte_state, h.state, if_neg (by omega), if_neg (by simp; omega)]
  mode := h.mode
  tagcnt := by rw [Block.takeDataByte_tagcnt, h.tagcnt, List.length_append]; omega
  tagb n hn := by rw [Block.takeDataByte_tagb, h.tagb n hn, List.getElem?_append_left (by omega)]
  acc := by
    rw [Block.takeDataByte_acc, h.acc, List.take_of_length_le (by omega),
      List.take_of_length_le (by simp; omega), crcFold_concat]
  count := by
    have hcount := h.count
    have hmax : b.count ≠ Config.maxCount := by unfold Config.maxCount; bv_omega
    rw [Block.takeDataByte_count, count_succ_toNat hmax, List.length_append, List.length_singleton]
    omega
  crcRx := h.crcRx
  ovf := by rw [Block.takeDataByte_ovf, h.ovf, List.length_append, List.length_singleton]; omega

/-- Past the maximum COUNT a byte is discarded. -/
theorem Block.Absorbed.setOvf (hfull : 4 + 0xFFFFFFFF ≤ bs.length) (x : Byte) : b.setOvf.Absorbed m v (bs ++ [x]) where
  state := by rw [Block.setOvf_state, h.state, if_neg (by omega), if_neg (by simp; omega)]
  mode := h.mode
  tagcnt := by rw [Block.setOvf_tagcnt, h.tagcnt, List.length_append]; omega
  tagb n hn := by rw [Block.setOvf_tagb, h.tagb n hn, List.getElem?_append_left (by omega)]
  acc := by rw [Block.setOvf_acc, h.acc, List.take_append_of_le_length hfull]
  count := by rw [Block.setOvf_count, h.count, List.length_append]; omega
  crcRx := h.crcRx
  ovf := by rw [Block.setOvf_ovf, List.length_append, List.length_singleton, eq_self, true_iff]; omega

/-- One more byte offered (R150). -/
theorem Block.Absorbed.absorb (x : Byte) : (b.absorb x).Absorbed m v (bs ++ [x]) := by
  have hcount := h.count
  by_cases hlen : bs.length < 4
  · rw [Block.absorb_tag (by rw [h.state, if_pos hlen])]
    exact h.takeTagByte hlen x
  · have hs : b.state = .data := by rw [h.state, if_neg hlen]
    by_cases hfull : 4 + 0xFFFFFFFF ≤ bs.length
    · have hmax : b.count = Config.maxCount := by unfold Config.maxCount; bv_omega
      rw [Block.absorb_full hs hmax]
      exact h.setOvf hfull x
    · have hmax : b.count ≠ Config.maxCount := by unfold Config.maxCount; bv_omega
      rw [Block.absorb_data hs hmax]
      exact h.takeDataByte (by omega) (by omega) x

theorem Block.Absorbed.absorbAll (xs : List Byte) : (b.absorbAll xs).Absorbed m v (bs ++ xs) := by
  induction xs generalizing b bs with
  | nil => simpa using h
  | cons x xs ih => simpa using ih (h.absorb x)

/-- The whole tag is the first four bytes of the stream. -/
theorem Block.Absorbed.tag_bytes (hlen : 4 ≤ bs.length) : b.tagb.bytes = bs.take 4 := by
  refine List.ext_getElem? fun n => ?_
  by_cases hn : n < 4
  · rw [h.tagb n hn, List.getElem?_take_of_lt hn, List.getElem?_eq_getElem (by omega)]
    rfl
  · rw [List.getElem?_eq_none (by rw [Tag.bytes_length]; omega), List.getElem?_eq_none (by simp; omega)]

theorem Block.Absorbed.tagAlpha_eq (hlen : 4 ≤ bs.length) : tagAlpha b.tagb = (bs.take 4).all isAlpha := by
  rw [tagAlpha_eq_all_bytes, h.tag_bytes hlen]

theorem Block.Absorbed.tagcnt_lt (hlen : bs.length < 4) : b.tagcnt < 4 := by
  have := h.tagcnt
  bv_omega

theorem Block.Absorbed.not_tagcnt_lt (hlen : 4 ≤ bs.length) : ¬ b.tagcnt < 4 := by
  have := h.tagcnt
  bv_omega

theorem Block.Absorbed.ovf_eq_false (hlen : bs.length ≤ 4 + 0xFFFFFFFF) : b.ovf = false :=
  Bool.eq_false_iff.2 fun ho => by have := h.ovf.1 ho; omega

theorem Block.Absorbed.crcFinal_acc (hlen : bs.length ≤ 4 + 0xFFFFFFFF) : crcFinal b.acc = crc32 bs := by
  rw [h.acc, List.take_of_length_le hlen, crc32]

theorem Block.Absorbed.finish : b.finish = b.recordVerdict b.finishResult := by
  rcases b.finish_cases with ⟨-, hb⟩ | ⟨hs, -⟩
  · exact hb
  · by_cases hlen : bs.length < 4 <;> simp [h.state, hlen] at hs

end

/-! ### The verdict, test by test (R124) -/

section
variable {b : Block}

theorem Block.finishResult_shortTag (h : b.tagcnt < 4) : b.finishResult = .shortTag := if_pos h

theorem Block.finishResult_lenOverflow (h : ¬ b.tagcnt < 4) (ho : b.ovf = true) : b.finishResult = .lenOverflow := by
  rw [Block.finishResult, if_neg h, if_pos ho]

theorem Block.finishResult_badTag (h : ¬ b.tagcnt < 4) (ho : b.ovf = false) (ha : tagAlpha b.tagb = false) :
    b.finishResult = .badTag := by
  rw [Block.finishResult, if_neg h, if_neg (by simp [ho]), if_pos (by simp [ha])]

theorem Block.finishResult_of_alpha (h : ¬ b.tagcnt < 4) (ho : b.ovf = false) (ha : tagAlpha b.tagb = true) :
    b.finishResult = if b.mode = .chk ∧ crcFinal b.acc ≠ b.crcRx then .crcMismatch else .ok := by
  rw [Block.finishResult, if_neg h, if_neg (by simp [ho]), if_neg (by simp [ha])]

theorem Block.Absorbed.finishResult_of_alpha {m : Mode} {v : Word} {bs : List Byte} (h : b.Absorbed m v bs)
    (hlen : 4 ≤ bs.length) (hmax : bs.length ≤ 4 + 0xFFFFFFFF) (ha : (bs.take 4).all isAlpha = true) :
    b.finishResult = if m = .chk ∧ crc32 bs ≠ v then .crcMismatch else .ok := by
  rw [Block.finishResult_of_alpha (h.not_tagcnt_lt hlen) (h.ovf_eq_false hmax) ((h.tagAlpha_eq hlen).trans ha), h.mode,
    h.crcFinal_acc hmax, h.crcRx]

end

/-! ### Whole runs -/

/-- START and any feeds complete, and leave what the bytes offered make of the start block. -/
theorem execAll_start_feeds {start : Instr} {feeds : List Instr} (hstart : start = .startGen ∨ start = .startChk)
    (hfeeds : ∀ i ∈ feeds, isFeed i = true) (s : State) :
    ∃ t m, execAll (start :: feeds) s = .next t ∧ t.block.Absorbed m s.block.crcRx (feeds.flatMap feedBytes) ∧
      (start = .startGen ↔ m = .gen) ∧ (start = .startChk ↔ m = .chk) := by
  obtain ⟨m, hexec, hgen, hchk⟩ := exec_start hstart
  refine ⟨s.setBlock ((s.block.start m).absorbAll (feeds.flatMap feedBytes)), m, ?_,
    (s.block.start_absorbed m).absorbAll _, hgen, hchk⟩
  rw [execAll, hexec]
  exact execAll_feeds hfeeds _

/-- Settles O19. -/
theorem accumulatorFoldsAbsorbedBytes : Obligations.AccumulatorFoldsAbsorbedBytes := by
  intro start feeds s hstart hfeeds
  obtain ⟨t, m, hrun, h, -⟩ := execAll_start_feeds hstart hfeeds s
  refine ⟨t, hrun, h.acc, ?_⟩
  rw [Block.crcOut, h.acc, crc32]

/-- Settles O20. -/
theorem countIsNumberOfDataBytesSaturating : Obligations.CountIsNumberOfDataBytesSaturating := by
  intro start feeds s hstart hfeeds
  obtain ⟨t, m, hrun, h, -⟩ := execAll_start_feeds hstart hfeeds s
  exact ⟨t, hrun, h.count, h.ovf⟩

/-- Settles O21. -/
theorem tagHoldsFirstFourBytes : Obligations.TagHoldsFirstFourBytes := by
  intro start feeds s hstart hfeeds
  obtain ⟨t, m, hrun, h, -⟩ := execAll_start_feeds hstart hfeeds s
  exact ⟨t, hrun, h.tagcnt, h.tagb⟩

/-- Settles O50: FINISH judges the block the stream left, test by test. -/
theorem wholeStreamVerdict : Obligations.WholeStreamVerdict := by
  intro start feeds s hstart hfeeds
  obtain ⟨t, m, hrun, h, hgen, hchk⟩ := execAll_start_feeds hstart hfeeds s
  have hres : t.block.finish.result = t.block.finishResult := by rw [h.finish, Block.recordVerdict_result]
  refine ⟨t.setBlock t.block.finish, ?_, by rw [State.setBlock_block, h.finish]; rfl, ?_⟩
  · rw [← List.cons_append, execAll_append _ hrun]
    rfl
  rintro bytes rfl
  rw [State.setBlock_block, hres]
  refine ⟨fun hlen => ?_, fun hlen => ?_, fun hlen hmax ha => ?_, fun hlen hmax ha hs hcrc => ?_,
    fun hlen hmax ha hok => ?_⟩
  · exact Block.finishResult_shortTag (h.tagcnt_lt hlen)
  · exact Block.finishResult_lenOverflow (h.not_tagcnt_lt (by omega)) (h.ovf.2 (by omega))
  · exact Block.finishResult_badTag (h.not_tagcnt_lt hlen) (h.ovf_eq_false hmax) ((h.tagAlpha_eq hlen).trans ha)
  · rw [h.finishResult_of_alpha hlen hmax ha, if_pos ⟨hchk.1 hs, hcrc⟩]
  · rw [h.finishResult_of_alpha hlen hmax ha, if_neg]
    rintro ⟨hm, hne⟩
    rcases hok with hs | hcrc
    · cases (hgen.1 hs).symm.trans hm
    · exact hne hcrc

end Sys2Proof.Machine
end

section
/-! The STATUS word, field by field (R40, R41, R172). -/

namespace Sys2Proof.Machine

section
variable (b : Block)

theorem Block.status_state : b.status.extractLsb' 0 2 = b.state.code := by
  ext i hi
  simp only [Block.status, BitVec.getElem_extractLsb', BitVec.getLsbD_append]
  simp [hi]

theorem Block.status_mode : b.status.getLsbD 2 = decide (b.mode = .chk) := by
  simp only [Block.status, BitVec.getLsbD_append]
  cases b.mode <;> rfl

theorem Block.status_tagcnt : b.status.extractLsb' 3 3 = b.tagcnt := by
  ext i hi
  simp only [Block.status, BitVec.getElem_extractLsb', BitVec.getLsbD_append]
  interval_cases i <;> simp [BitVec.getLsbD_eq_getElem]

theorem Block.status_stickyFlags :
    b.status.getLsbD 6 = b.ovf ∧ b.status.getLsbD 7 = b.cmderr ∧ b.status.getLsbD 8 = b.seqerr := by
  simp only [Block.status, BitVec.getLsbD_append]
  simp

theorem Block.status_result : b.status.extractLsb' 9 3 = b.result.code := by
  ext i hi
  simp only [Block.status, BitVec.getElem_extractLsb', BitVec.getLsbD_append]
  interval_cases i <;> simp [BitVec.getLsbD_eq_getElem]

theorem Block.status_reserved : b.status.extractLsb' 12 4 = 0 ∧ b.status.extractLsb' 22 10 = 0 := by
  constructor <;> ext i hi
  all_goals
    simp only [Block.status, BitVec.getElem_extractLsb', BitVec.getLsbD_append]
    interval_cases i <;> simp

theorem Block.status_tagFlags :
    b.status.extractLsb' 16 6 =
      BitVec.ofBool (b.tagFlag tagValid) ++ BitVec.ofBool (b.tagFlag tagSafeToCopy) ++
        BitVec.ofBool (b.tagFlag tagReservedOk) ++ BitVec.ofBool (b.tagFlag tagPublic) ++
        BitVec.ofBool (b.tagFlag tagCritical) ++ BitVec.ofBool (b.tagFlag tagAlpha) := by
  refine BitVec.eq_of_getLsbD_eq fun i hi => ?_
  simp only [Block.status, BitVec.getLsbD_extractLsb', BitVec.getLsbD_append]
  interval_cases i <;> simp

theorem Block.status_tagFlag_bits :
    b.status.getLsbD 16 = b.tagFlag tagAlpha ∧ b.status.getLsbD 17 = b.tagFlag tagCritical ∧
      b.status.getLsbD 18 = b.tagFlag tagPublic ∧ b.status.getLsbD 19 = b.tagFlag tagReservedOk ∧
      b.status.getLsbD 20 = b.tagFlag tagSafeToCopy ∧ b.status.getLsbD 21 = b.tagFlag tagValid := by
  simp only [Block.status, BitVec.getLsbD_append]
  simp

end

theorem Block.tagFlag_of_complete {b : Block} (h : b.tagcnt = 4) (property : Tag → Bool) :
    b.tagFlag property = property b.tagb := by
  rw [Block.tagFlag, decide_eq_true h, Bool.true_and]

theorem Block.tagFlag_of_incomplete {b : Block} (h : b.tagcnt ≠ 4) (property : Tag → Bool) :
    b.tagFlag property = false := by
  rw [Block.tagFlag, decide_eq_false h, Bool.false_and]

/-- Settles O26: the example of R172 is a run the model evaluates, the fields are those of the word's parts. -/
theorem statusWordHasItsFields : Obligations.StatusWordHasItsFields := by
  refine ⟨fun x => decode_mk false 1 x, by decide, ⟨_, rfl, by decide +kernel⟩, fun s => ?_⟩
  obtain ⟨hovf, hcmd, hseq⟩ := s.block.status_stickyFlags
  obtain ⟨hrsv, hrsv'⟩ := s.block.status_reserved
  obtain ⟨halpha, hcrit, hpub, hres, hsafe, hvalid⟩ := s.block.status_tagFlag_bits
  refine ⟨rfl, fun _ => rfl, ?_, s.block.status_mode, s.block.status_tagcnt, hovf, hcmd, hseq, ?_, hrsv, halpha, hcrit,
    hpub, hres, hsafe, hvalid, hrsv'⟩
  · rw [s.block.status_state]
    cases s.block.state <;> rfl
  · rw [s.block.status_result]
    cases s.block.result <;> rfl

/-- Settles O27. -/
theorem tagFlagsWaitForWholeTag : Obligations.TagFlagsWaitForWholeTag := by
  intro b
  rw [b.status_tagFlags]
  constructor
  · intro h
    have hne : b.tagcnt ≠ 4 := by bv_omega
    simp only [Block.tagFlag_of_incomplete hne]
    rfl
  · intro h
    simp only [Block.tagFlag_of_complete h]

end Sys2Proof.Machine
end

section
/-! Access to the register window (R71, R74): reads repeat their value, which writes may be repeated, and the
big-endian wire fields. -/

namespace Sys2Proof.Machine

/-! ### Repeated writes (R71) -/

/-- Repeating a write that is neither a feed nor FINISH does nothing more to the block. -/
theorem blockEffect_idempotent {i : Instr} (hfeed : isFeed i = false) (hfin : i ≠ .finish) (b : Block) :
    blockEffect i (blockEffect i b) = blockEffect i b := by
  cases i with
  | feedb x => cases hfeed
  | feedw w => cases hfeed
  | finish => exact absurd rfl hfin
  | _ => rfl

/-- A second FINISH in a row leaves SEQERR set: the first one was an error of sequence itself, or it moved STATE
to DONE (R126). -/
theorem Block.finish_finish_seqerr (b : Block) : b.finish.finish.seqerr = true := by
  rcases b.finish_cases with ⟨-, h⟩ | ⟨-, h⟩
  · have hdone : b.finish.state = .done := by rw [h, Block.recordVerdict_state]
    rcases b.finish.finish_cases with ⟨hs, -⟩ | ⟨-, h'⟩
    · simp [hdone] at hs
    · rw [h', Block.setSeqErr_seqerr]
  · exact Block.finish_seqerr_of_set (by rw [h, Block.setSeqErr_seqerr])

/-- A write whose effect on some block changes when it is applied again is not idempotent. -/
theorem exec_write_not_idempotent {i : Instr} {b : Block} (hi : readTarget i = none)
    (hb : blockEffect i (blockEffect i b) ≠ blockEffect i b) :
    ∃ s t : State, exec i s = .next t ∧ exec i t ≠ .next t := by
  refine ⟨State.reset.setBlock b, _, exec_write hi _, fun h => hb ?_⟩
  exact (exec_next_block h).1.symm

/-- Settles O28. FINISH and the feeds are repeated from the block START.GEN leaves: the second FINISH sets SEQERR, the
second FEEDB moves TAGCNT on and the second FEEDW moves COUNT on. -/
theorem readsHaveNoSideEffectsAndRepeatedWrites : Obligations.ReadsHaveNoSideEffectsAndRepeatedWrites := by
  refine ⟨?_, fun _ _ _ => ⟨rfl, rfl, rfl, rfl, fun _ => rfl⟩, ?_, ?_, ?_, ?_, ?_⟩
  · intro i r s _ hr
    exact ⟨s.block.readReg r, _, _, exec_read hr s, rfl, rfl, exec_read hr _, rfl, by simp⟩
  · intro i s t _ hw hfeed hfin h
    rw [exec_write hw] at h
    cases h
    rw [exec_write hw, State.setBlock_block, blockEffect_idempotent hfeed hfin, State.setBlock_setBlock]
  · intro s t h
    refine ⟨_, exec_write rfl t, ?_⟩
    rw [(exec_next_block h).1]
    exact s.block.finish_finish_seqerr
  · exact exec_write_not_idempotent (b := Block.reset.start .gen) rfl fun h =>
      absurd (congrArg Block.seqerr h) (by decide)
  · exact ⟨0x49, exec_write_not_idempotent (b := Block.reset.start .gen) rfl fun h =>
      absurd (congrArg Block.tagcnt h) (by decide)⟩
  · exact ⟨0x49454E44, exec_write_not_idempotent (b := Block.reset.start .gen) rfl fun h =>
      absurd (congrArg Block.count h) (by decide)⟩

/-! ### The wire fields (R74) -/

/-- A word is put together again from its four bytes, most significant first. -/
theorem wordOfBytes_extract (w : Word) :
    wordOfBytes (w.extractLsb' 24 8) (w.extractLsb' 16 8) (w.extractLsb' 8 8) (w.extractLsb' 0 8) = w := by
  apply BitVec.eq_of_toNat_eq
  rw [wordOfBytes_toNat]
  simp only [BitVec.extractLsb'_toNat, Nat.shiftRight_eq_div_pow]
  omega

/-- The bytes of a word put together from four bytes are those four. -/
theorem wordBytes_wordOfBytes (c0 c1 c2 c3 : Byte) : wordBytes (wordOfBytes c0 c1 c2 c3) = [c0, c1, c2, c3] := by
  simp only [wordBytes, List.cons.injEq, and_true]
  refine ⟨?_, ?_, ?_, ?_⟩
  all_goals
    apply BitVec.eq_of_toNat_eq
    rw [BitVec.extractLsb'_toNat, wordOfBytes_toNat, Nat.shiftRight_eq_div_pow]
    omega

/-- Settles O29. -/
theorem wireFieldsAreBigEndian : Obligations.WireFieldsAreBigEndian :=
  ⟨fun _ => rfl, fun _ => rfl, wordOfBytes_extract, wordBytes_wordOfBytes, by decide⟩

end Sys2Proof.Machine
end

section
/-! The key codec (R91 to R94, R97): the encoder and the decoder undo each other, the decoder follows the procedure of
R93, and the opcode map names the row of the instruction decoded. -/

namespace Sys2Proof

/-! ### Encoding, then decoding -/

theorem decode_encode {i : Instr} (h : i.WellFormed) : decode (encode i) = .ok i := by
  cases i with
  | cmdRsv v => exact (decode_mk true 0 v).trans (congrArg _ (decodeCommand_reserved h))
  | wrRsv n x => exact (decode_mk true n x).trans (congrArg _ (decodeWrite_reserved h x))
  | rdRsv n => exact (decode_mk false n 0).trans (congrArg _ (decodeRead_reserved h))
  | feedb b => exact (decode_mk true 2 _).trans (congrArg (Except.ok ∘ Instr.feedb) (lowByte_setWidth b))
  | _ => exact decode_mk _ _ _

/-- Settles O8. -/
theorem decodeInvertsEncode : Obligations.DecodeInvertsEncode := fun _ => decode_encode

/-! ### Decoding, then encoding -/

theorem decodeCommand_wellFormed (w : Word) : (decodeCommand w).WellFormed := by
  rcases command_cases w with rfl | rfl | rfl | rfl | rfl | h
  iterate 5 rfl
  rwa [decodeCommand_reserved h]

theorem decodeWrite_wellFormed (n : Slot) (w : Word) : (decodeWrite n w).WellFormed := by
  rcases slot_cases n with rfl | rfl | rfl | rfl | rfl | rfl | rfl | rfl | h
  · exact decodeCommand_wellFormed w
  iterate 7 rfl
  rwa [decodeWrite_reserved h]

theorem decodeRead_wellFormed (n : Slot) : (decodeRead n).WellFormed := by
  rcases slot_cases n with rfl | rfl | rfl | rfl | rfl | rfl | rfl | rfl | h
  iterate 8 rfl
  rwa [decodeRead_reserved h]

theorem encode_decodeCommand (w : Word) : encode (decodeCommand w) = Key.mk true 0 w := by
  rcases command_cases w with rfl | rfl | rfl | rfl | rfl | h
  iterate 5 rfl
  rw [decodeCommand_reserved h, encode]

theorem Key.canonical_mk_read (n : Slot) (w : Word) : (Key.mk false n w).canonical = Key.mk false n 0 := by
  simp [Key.canonical]

theorem Key.canonical_mk_feedb (w : Word) : (Key.mk true 2 w).canonical = Key.mk true 2 ((lowByte w).setWidth 32) := by
  simp [Key.canonical]

theorem Key.canonical_mk_write {n : Slot} (h : n ≠ 2) (w : Word) : (Key.mk true n w).canonical = Key.mk true n w := by
  rw [Key.canonical, if_neg (by simp), Key.mk_waddr, if_neg h]

theorem encode_decodeWrite (n : Slot) (w : Word) : encode (decodeWrite n w) = (Key.mk true n w).canonical := by
  by_cases h2 : n = 2
  · subst h2
    rw [Key.canonical_mk_feedb]
    rfl
  · rw [Key.canonical_mk_write h2]
    rcases slot_cases n with rfl | rfl | rfl | rfl | rfl | rfl | rfl | rfl | h
    · exact encode_decodeCommand w
    · rfl
    · exact absurd rfl h2
    iterate 5 rfl
    rw [decodeWrite_reserved h, encode]

theorem encode_decodeRead (n : Slot) (w : Word) : encode (decodeRead n) = (Key.mk false n w).canonical := by
  rw [Key.canonical_mk_read]
  rcases slot_cases n with rfl | rfl | rfl | rfl | rfl | rfl | rfl | rfl | h
  iterate 8 rfl
  rw [decodeRead_reserved h, encode]

/-- Settles O9. -/
theorem decodeLosesOnlyIgnoredBits : Obligations.DecodeLosesOnlyIgnoredBits := by
  intro k i hd
  obtain ⟨hpad, rfl⟩ := decode_eq_ok_iff.1 hd
  rw [congrArg Key.canonical (Key.eq_mk hpad)]
  cases k.we with
  | true => exact ⟨decodeWrite_wellFormed _ _, encode_decodeWrite _ _⟩
  | false => exact ⟨decodeRead_wellFormed _, encode_decodeRead _ _⟩

/-! ### The opcode map (R94), each row as a condition on the fields of the key -/

theorem Key.and_pad (k m : Key) : (k &&& m).pad = k.pad &&& m.pad := BitVec.extractLsb'_and

theorem Key.mk_and (we : Bool) (n : Slot) (w : Word) (m : Key) :
    Key.mk we n w &&& m = Key.mk (we && m.we) (n &&& m.waddr) (w &&& m.wdata) := by
  have hpad : (Key.mk we n w &&& m).pad = 0 := by simp [Key.and_pad]
  have hwe : (Key.mk we n w &&& m).we = (we && m.we) := by
    rw [Key.we, BitVec.getLsbD_and, ← Key.we, ← Key.we, Key.mk_we]
  have hwaddr : (Key.mk we n w &&& m).waddr = n &&& m.waddr := by
    rw [Key.waddr, BitVec.extractLsb'_and, ← Key.waddr, ← Key.waddr, Key.mk_waddr]
  have hwdata : (Key.mk we n w &&& m).wdata = w &&& m.wdata := by
    rw [Key.wdata, BitVec.extractLsb'_and, ← Key.wdata, ← Key.wdata, Key.mk_wdata]
  rw [Key.eq_mk hpad, hwe, hwaddr, hwdata]

theorem Key.mk_inj {we we' : Bool} {n n' : Slot} {w w' : Word} :
    Key.mk we n w = Key.mk we' n' w' ↔ we = we' ∧ n = n' ∧ w = w' := by
  constructor
  · intro h
    have hwe := congrArg Key.we h
    have hwaddr := congrArg Key.waddr h
    have hwdata := congrArg Key.wdata h
    simp only [Key.mk_we, Key.mk_waddr, Key.mk_wdata] at hwe hwaddr hwdata
    exact ⟨hwe, hwaddr, hwdata⟩
  · rintro ⟨rfl, rfl, rfl⟩
    rfl

/-- A row that fixes every bit of the key: one command value. -/
def commandRow (name : String) (v : Word) : OpcodeRow := ⟨name, Key.mk true 0 v, BitVec.allOnes 40⟩

/-- A row that fixes WE, PAD and the slot. -/
def slotRow (name : String) (we : Bool) (n : Slot) : OpcodeRow := ⟨name, Key.mk we n 0, 0xFF00000000⟩

/-- A row that fixes WE, PAD and the top bit of the slot. -/
def reservedRow (name : String) (we : Bool) : OpcodeRow := ⟨name, Key.mk we 8 0, 0xF800000000⟩

theorem opcodeMap_eq_rows : opcodeMap =
    [commandRow "NOP" 0, commandRow "START.GEN" 1, commandRow "START.CHK" 2, commandRow "FINISH" 3,
      commandRow "ABORT" 4, slotRow "CMD.RSV" true 0, slotRow "WR.STATUS" true 1, slotRow "FEEDB" true 2,
      slotRow "FEEDW" true 3, slotRow "SETRX" true 4, slotRow "WR.CRC_OUT" true 5, slotRow "WR.COUNT" true 6,
      slotRow "WR.TAG" true 7, reservedRow "WR.RSV" true, slotRow "RD.CMD" false 0, slotRow "RD.STATUS" false 1,
      slotRow "RD.DIN_B" false 2, slotRow "RD.DIN_W" false 3, slotRow "RD.CRC_RX" false 4,
      slotRow "RD.CRC_OUT" false 5, slotRow "RD.COUNT" false 6, slotRow "RD.TAG" false 7,
      reservedRow "RD.RSV" false] := rfl

@[simp] theorem commandRow_mnemonic (name : String) (v : Word) : (commandRow name v).mnemonic = name := rfl

@[simp] theorem slotRow_mnemonic (name : String) (we : Bool) (n : Slot) : (slotRow name we n).mnemonic = name := rfl

@[simp] theorem reservedRow_mnemonic (name : String) (we : Bool) : (reservedRow name we).mnemonic = name := rfl

section
variable (name : String) (we we' : Bool) (n n' : Slot) (w v : Word)

@[simp] theorem mk_matches_commandRow :
    Key.mk we n w &&& (commandRow name v).mask = (commandRow name v).pattern ↔ we = true ∧ n = 0 ∧ w = v := by
  rw [commandRow, BitVec.and_allOnes, Key.mk_inj]

@[simp] theorem mk_matches_slotRow :
    Key.mk we n w &&& (slotRow name we' n').mask = (slotRow name we' n').pattern ↔ we = we' ∧ n = n' := by
  have hmask : (0xFF00000000 : Key).we = true ∧ (0xFF00000000 : Key).waddr = BitVec.allOnes 4 ∧
      (0xFF00000000 : Key).wdata = 0 := by decide
  obtain ⟨hwe, hwaddr, hwdata⟩ := hmask
  rw [slotRow, Key.mk_and, Key.mk_inj, hwe, hwaddr, hwdata, BitVec.and_allOnes]
  simp

@[simp] theorem mk_matches_reservedRow :
    Key.mk we n w &&& (reservedRow name we').mask = (reservedRow name we').pattern ↔
      we = we' ∧ isReservedSlot n = true := by
  have hmask : (0xF800000000 : Key).we = true ∧ (0xF800000000 : Key).waddr = 8 ∧
      (0xF800000000 : Key).wdata = 0 := by decide
  have hslot : ∀ n : Slot, n &&& 8 = 8 ↔ isReservedSlot n = true := by decide
  obtain ⟨hwe, hwaddr, hwdata⟩ := hmask
  rw [reservedRow, Key.mk_and, Key.mk_inj, hwe, hwaddr, hwdata, hslot]
  simp

end

/-- Every row asks for PAD = 000. -/
theorem pad_eq_zero_of_matches {k : Key} {r : OpcodeRow} (hr : r ∈ opcodeMap) (h : k &&& r.mask = r.pattern) :
    k.pad = 0 := by
  have hrow : ∀ r ∈ opcodeMap, r.mask.pad = BitVec.allOnes 3 ∧ r.pattern.pad = 0 := by decide
  obtain ⟨hmask, hpattern⟩ := hrow r hr
  have hpad := congrArg Key.pad h
  rwa [Key.and_pad, hmask, BitVec.and_allOnes, hpattern] at hpad

/-- The mnemonic of the first row of the map that a key matches, rows tried in increasing priority (R93). The lemmas on
it below keep numerals as isReservedSlot_ne and isReservedCommand_ne spell them. -/
def firstRowMnemonic (k : Key) : Option String :=
  (opcodeMap.find? fun r => k &&& r.mask = r.pattern).map (·.mnemonic)

theorem firstRowMnemonic_command (w : Word) :
    firstRowMnemonic (Key.mk true 0 w) = some (decodeCommand w).mnemonic := by
  rcases command_cases w with rfl | rfl | rfl | rfl | rfl | h
  iterate 5 simp [firstRowMnemonic, opcodeMap_eq_rows, decodeCommand, Instr.mnemonic]
  rw [decodeCommand_reserved h]
  simp [firstRowMnemonic, opcodeMap_eq_rows, Instr.mnemonic, isReservedCommand_ne h, -BitVec.ofNat_eq_ofNat]

theorem firstRowMnemonic_write (n : Slot) (w : Word) :
    firstRowMnemonic (Key.mk true n w) = some (decodeWrite n w).mnemonic := by
  rcases slot_cases n with rfl | rfl | rfl | rfl | rfl | rfl | rfl | rfl | h
  · exact firstRowMnemonic_command w
  iterate 7 simp [firstRowMnemonic, opcodeMap_eq_rows, decodeWrite, Instr.mnemonic]
  rw [decodeWrite_reserved h]
  simp [firstRowMnemonic, opcodeMap_eq_rows, Instr.mnemonic, h, isReservedSlot_ne h, -BitVec.ofNat_eq_ofNat]

theorem firstRowMnemonic_read (n : Slot) (w : Word) :
    firstRowMnemonic (Key.mk false n w) = some (decodeRead n).mnemonic := by
  rcases slot_cases n with rfl | rfl | rfl | rfl | rfl | rfl | rfl | rfl | h
  iterate 8 simp [firstRowMnemonic, opcodeMap_eq_rows, decodeRead, Instr.mnemonic, isReservedSlot]
  rw [decodeRead_reserved h]
  simp [firstRowMnemonic, opcodeMap_eq_rows, Instr.mnemonic, h, isReservedSlot_ne h, -BitVec.ofNat_eq_ofNat]

theorem firstRowMnemonic_of_decode {k : Key} {i : Instr} (hd : decode k = .ok i) :
    firstRowMnemonic k = some i.mnemonic := by
  obtain ⟨hpad, rfl⟩ := decode_eq_ok_iff.1 hd
  rw [congrArg firstRowMnemonic (Key.eq_mk hpad)]
  cases k.we with
  | true => exact firstRowMnemonic_write _ _
  | false => exact firstRowMnemonic_read _ _

/-! ### The decode procedure (R93) -/

theorem decode_padNonZero {k : Key} (h : k.pad ≠ 0) : decode k = .error .padNonZero := if_pos h

theorem decode_read {k : Key} (hpad : k.pad = 0) (hwe : k.we = false) : decode k = .ok (decodeRead k.waddr) :=
  decode_eq_ok_iff.2 ⟨hpad, by simp [hwe]⟩

theorem decode_write {k : Key} (hpad : k.pad = 0) (hwe : k.we = true) :
    decode k = .ok (decodeWrite k.waddr k.wdata) :=
  decode_eq_ok_iff.2 ⟨hpad, by simp [hwe]⟩

/-- Settles O10: an answer is that of decodeRead, decodeCommand or decodeWrite on the key's fields, and the first row
that matches the key is the one of that answer. -/
theorem decodeFollowsProcedureAndMap : Obligations.DecodeFollowsProcedureAndMap := by
  refine ⟨fun k hpad => ⟨decode_padNonZero hpad, ?_⟩, fun k hpad hwe => ?_, fun k hpad hwe hslot => ?_,
    fun k hpad hwe => ?_, fun k i => firstRowMnemonic_of_decode⟩
  · rw [List.find?_eq_none]
    intro r hr hmatch
    exact hpad (pad_eq_zero_of_matches hr (of_decide_eq_true hmatch))
  · have hdecode : decode k = .ok (decodeRead (k.extractLsb' 32 4)) := decode_read hpad hwe
    rw [hdecode]
    refine ⟨?_, ?_, ?_, ?_, ?_, ?_, ?_, ?_, fun h => congrArg _ (decodeRead_reserved (decide_eq_true h))⟩
    all_goals
      intro h
      rw [h]
      rfl
  · have hdecode : decode k = .ok (decodeCommand (k.extractLsb' 0 32)) := by
      rw [decode_write hpad hwe, show k.waddr = 0 from hslot]
      rfl
    rw [hdecode]
    refine ⟨?_, ?_, ?_, ?_, ?_, fun h => congrArg _ (decodeCommand_reserved (decide_eq_true (by bv_omega)))⟩
    all_goals
      intro h
      rw [h]
      rfl
  · have hdecode : decode k = .ok (decodeWrite (k.extractLsb' 32 4) (k.extractLsb' 0 32)) := decode_write hpad hwe
    rw [hdecode]
    have hfeedb : lowByte (k.extractLsb' 0 32) = k.extractLsb' 0 8 := by
      rw [lowByte, BitVec.extractLsb'_extractLsb'_of_le (by decide)]
    rw [← hfeedb]
    refine ⟨?_, ?_, ?_, ?_, ?_, ?_, ?_, fun h => congrArg _ (decodeWrite_reserved (decide_eq_true h) _)⟩
    all_goals
      intro h
      rw [h]
      rfl

/-- Settles O11: two rows that a key matches fix the same value on the bits that both look at, and only the pairs of
CMD.RSV and an exact command do. -/
theorem onlyReservedCommandRowOverlaps : Obligations.OnlyReservedCommandRowOverlaps := by
  have hrows : ∀ r ∈ opcodeMap, ∀ r' ∈ opcodeMap, r ≠ r' → r.pattern &&& r'.mask = r'.pattern &&& r.mask →
      r ∈ commandRows ∧ r' ∈ commandRows ∧ (r.mnemonic = "CMD.RSV" ∨ r'.mnemonic = "CMD.RSV") := by
    decide +kernel
  intro k r r' hr hr' hne h h'
  refine hrows r hr r' hr' hne ?_
  rw [← h, ← h', BitVec.and_assoc, BitVec.and_assoc, BitVec.and_comm r.mask]

/-- Settles O12. -/
theorem writtenOutKeysDecode : Obligations.WrittenOutKeysDecode :=
  ⟨rfl, rfl, rfl, rfl, rfl, rfl, rfl, rfl, rfl⟩

end Sys2Proof
end

section
/-! The lines of a script (R97, R98): assembling undoes disassembling, FEED offers its bytes, and a GEN run returns
the CRC and the length of its chunk. -/

namespace Sys2Proof.Machine

/-! ### Assembling (R97) -/

@[simp] theorem fitField_toNat {w : Nat} (v : BitVec w) : fitField w v.toNat = some v := by
  rw [fitField, if_pos v.isLt, BitVec.ofNat_toNat, BitVec.setWidth_eq]

/-- Settles O13. -/
theorem assembleInvertsDisassemble : Obligations.AssembleInvertsDisassemble := by
  intro i h
  cases i with
  | cmdRsv v => simp [assemble, instrOperands, oneOperandForm, Instr.mnemonic, show isReservedCommand v = true from h]
  | rdRsv n => simp [assemble, instrOperands, oneOperandForm, Instr.mnemonic, show isReservedSlot n = true from h]
  | wrRsv n x => simp [assemble, instrOperands, twoOperandForm, Instr.mnemonic, show isReservedSlot n = true from h]
  | wrStatus v | feedb v | feedw v | setrx v | wrCrcOut v | wrCount v | wrTag v =>
    simp [assemble, instrOperands, oneOperandForm, Instr.mnemonic]
  | _ => decide

/-! ### FEED (R98, R152) -/

theorem flatMap_feedBytes_map_feedb (bytes : List Byte) : (bytes.map Instr.feedb).flatMap feedBytes = bytes := by
  simp [List.flatMap_map, feedBytes]

theorem isFeed_of_mem_pseudoFeed {bytes : List Byte} : ∀ i ∈ pseudoFeed bytes, isFeed i = true := by
  induction bytes using pseudoFeed.induct with
  | case1 b0 b1 b2 b3 rest ih => exact List.forall_mem_cons.2 ⟨rfl, ih⟩
  | _ => simp [pseudoFeed, isFeed]

@[simp] theorem flatMap_feedBytes_pseudoFeed (bytes : List Byte) : (pseudoFeed bytes).flatMap feedBytes = bytes := by
  induction bytes using pseudoFeed.induct with
  | case1 b0 b1 b2 b3 rest ih =>
    rw [pseudoFeed, List.flatMap_cons, ih, feedBytes, wordBytes_wordOfBytes]
    rfl
  | _ => rfl

theorem pseudoFeed_eq_words_singles (bytes : List Byte) : ∃ (words : List Word) (singles : List Byte),
    pseudoFeed bytes = words.map .feedw ++ singles.map .feedb ∧
      words.length = bytes.length / 4 ∧ singles.length = bytes.length % 4 := by
  induction bytes using pseudoFeed.induct with
  | case1 b0 b1 b2 b3 rest ih =>
    obtain ⟨words, singles, hfeed, hwords, hsingles⟩ := ih
    refine ⟨wordOfBytes b0 b1 b2 b3 :: words, singles, by rw [pseudoFeed, hfeed]; rfl, ?_, ?_⟩
    all_goals simp only [List.length_cons]; omega
  | case2 b0 b1 b2 => exact ⟨[], [b0, b1, b2], rfl, by simp, rfl⟩
  | case3 b0 b1 => exact ⟨[], [b0, b1], rfl, by simp, rfl⟩
  | case4 b0 => exact ⟨[], [b0], rfl, by simp, rfl⟩
  | case5 => exact ⟨[], [], rfl, rfl, rfl⟩

theorem execAll_pseudoFeed (bytes : List Byte) (s : State) :
    execAll (pseudoFeed bytes) s = .next (s.setBlock (s.block.absorbAll bytes)) := by
  rw [execAll_feeds isFeed_of_mem_pseudoFeed, flatMap_feedBytes_pseudoFeed]

theorem execAll_map_feedb (bytes : List Byte) (s : State) :
    execAll (bytes.map .feedb) s = .next (s.setBlock (s.block.absorbAll bytes)) := by
  rw [execAll_feeds (by simp [isFeed]), flatMap_feedBytes_map_feedb]

/-- Settles O14. -/
theorem pseudoFeedOffersExactlyItsBytes : Obligations.PseudoFeedOffersExactlyItsBytes := by
  refine ⟨fun v => ?_, fun bytes => ?_, fun bytes s => ?_⟩
  · rw [decode_mk]
    rfl
  · exact ⟨flatMap_feedBytes_pseudoFeed bytes, isFeed_of_mem_pseudoFeed, pseudoFeed_eq_words_singles bytes⟩
  · rw [execAll_pseudoFeed, execAll_map_feedb]

/-! ### The block a whole chunk leaves (R19, R31 to R33, R124) -/

theorem Tag.bytes_injective {t t' : Tag} (h : t.bytes = t'.bytes) : t = t' := by
  cases t
  cases t'
  simpa [Tag.bytes] using h

theorem Tag.bytes_append_length (t : Tag) (data : List Byte) : (t.bytes ++ data).length = 4 + data.length := by
  rw [List.length_append, Tag.bytes_length]

section
variable {m : Mode} {v : Word} {tag : Tag} {data : List Byte} {b : Block} (h : b.Absorbed m v (tag.bytes ++ data))
include h

theorem Block.Absorbed.tagb_of_chunk : b.tagb = tag :=
  Tag.bytes_injective ((h.tag_bytes (by rw [Tag.bytes_append_length]; omega)).trans (List.take_left' tag.bytes_length))

theorem Block.Absorbed.count_of_chunk (hlen : data.length ≤ 0xFFFFFFFF) : b.count = BitVec.ofNat 32 data.length := by
  have hcount := h.count
  rw [Tag.bytes_append_length] at hcount
  apply BitVec.eq_of_toNat_eq
  rw [BitVec.toNat_ofNat]
  omega

theorem Block.Absorbed.crcOut_of_chunk (hlen : data.length ≤ 0xFFFFFFFF) : b.crcOut = crc32 (tag.bytes ++ data) :=
  h.crcFinal_acc (by rw [Tag.bytes_append_length]; omega)

theorem Block.Absorbed.finishResult_of_chunk (hlen : data.length ≤ 0xFFFFFFFF) :
    b.finishResult =
      if tagAlpha tag then if m = .chk ∧ crc32 (tag.bytes ++ data) ≠ v then .crcMismatch else .ok else .badTag := by
  have htag := h.tagb_of_chunk
  have hmin : 4 ≤ (tag.bytes ++ data).length := by rw [Tag.bytes_append_length]; omega
  have hmax : (tag.bytes ++ data).length ≤ 4 + 0xFFFFFFFF := by rw [Tag.bytes_append_length]; omega
  cases ha : tagAlpha tag with
  | true =>
    rw [h.finishResult_of_alpha hmin hmax (by rw [← h.tagAlpha_eq hmin, htag, ha]), if_pos rfl]
  | false =>
    rw [Block.finishResult_badTag (h.not_tagcnt_lt hmin) (h.ovf_eq_false hmax) (by rw [htag, ha]), if_neg (by simp)]

end

/-! ### GEN (R98, R245) -/

/-- A GEN run ends in the block FINISH makes of START and the bytes, and returns three of its registers. -/
theorem execAll_pseudoGen (tag data : List Byte) (s : State) {b : Block}
    (hb : ((s.block.start .gen).absorbAll (tag ++ data)).finish = b) :
    execAll (pseudoGen tag data) s =
      .next { s with block := b, reads := s.reads ++ [b.status, b.crcOut, b.count] } := by
  have hfeed := execAll_pseudoFeed (tag ++ data) (s.setBlock (s.block.start .gen))
  calc execAll (pseudoGen tag data) s
      = execAll [.finish, .rdStatus, .rdCrcOut, .rdCount]
          (s.setBlock ((s.block.start .gen).absorbAll (tag ++ data))) := execAll_append _ hfeed
    _ = .next ((((s.setBlock b).observe b.status).observe b.crcOut).observe b.count) := by rw [← hb]; rfl
    _ = _ := by simp [State.observe, State.setBlock]

/-- Settles O53. -/
theorem generateReturnsCrcAndLength : Obligations.GenerateReturnsCrcAndLength := by
  intro tag data s hlen
  have h := (s.block.start_absorbed .gen).absorbAll (tag.bytes ++ data)
  rw [List.nil_append] at h
  refine ⟨_, execAll_pseudoGen tag.bytes data s h.finish, ?_, h.tagb_of_chunk, ?_⟩
  · rw [← h.crcOut_of_chunk hlen, ← h.count_of_chunk hlen]
    rfl
  · rw [Block.recordVerdict_result, h.finishResult_of_chunk hlen]
    simp

end Sys2Proof.Machine
end

section
/-! The commands (R120 to R131): what each CMD write leaves, the verdict of FINISH, and RESULT between them. -/

namespace Sys2Proof.Machine

/-! ### Every CMD write (R120, R121) -/

theorem Block.command_crcRx (w : Word) (b : Block) : (b.command w).crcRx = b.crcRx := by
  rcases command_cases w with rfl | rfl | rfl | rfl | rfl | h
  · rfl
  · rfl
  · rfl
  · exact b.finish_crcRx
  · rfl
  · rw [Block.command_reserved h, Block.setCmdErr_crcRx]

/-- Settles O38: a CMD write is a bus write of slot 0, whatever the state. -/
theorem commandsAcceptedEverywhereKeepCrcRx : Obligations.CommandsAcceptedEverywhereKeepCrcRx :=
  fun w s => ⟨decodeWrite 0 w, busWrite 0 w s, decode_mk true 0 w, exec_decodeWrite 0 w s,
    Block.command_crcRx w s.block, rfl, rfl⟩

/-- Settles O31. -/
theorem nopChangesNothing : Obligations.NopChangesNothing :=
  ⟨rfl, fun s => exec_write rfl s, ⟨_, rfl, Block.reset_readReg .status⟩⟩

/-! ### START and ABORT (R122, R123, R129): STATUS and CRC_OUT do not depend on the CRC_RX they keep -/

theorem Block.start_gen_status (b : Block) : (b.start .gen).status = 1 :=
  show (Block.reset.start .gen).status = 1 by decide

theorem Block.start_chk_status (b : Block) : (b.start .chk).status = 5 :=
  show (Block.reset.start .chk).status = 5 by decide

theorem Block.start_crcOut (m : Mode) (b : Block) : (b.start m).crcOut = 0 := by
  rw [Block.crcOut, Block.start_acc]
  decide

theorem Block.abort_eq_reset (b : Block) : b.abort = { Block.reset with crcRx := b.crcRx } := rfl

theorem Block.abort_status (b : Block) : b.abort.status = 0 := Block.reset_readReg .status

theorem Block.abort_crcOut (b : Block) : b.abort.crcOut = 0 := Block.reset_readReg .crcOut

/-- Settles O32. -/
theorem startGenBeginsGenerate : Obligations.StartGenBeginsGenerate := by
  refine ⟨rfl, fun s => exec_write rfl s, fun s t h => ?_⟩
  cases h
  exact ⟨rfl, s.block.start_gen_status, s.block.start_crcOut .gen⟩

/-- Settles O33. -/
theorem startChkBeginsValidate : Obligations.StartChkBeginsValidate := by
  refine ⟨rfl, fun s => exec_write rfl s, fun s t h => ?_⟩
  cases h
  exact ⟨rfl, s.block.start_chk_status, s.block.start_crcOut .chk⟩

/-- Settles O36. -/
theorem abortResetsAllButCrcRx : Obligations.AbortResetsAllButCrcRx := by
  refine ⟨rfl, fun s => exec_write rfl s, fun s t h => ?_⟩
  cases h
  exact ⟨s.block.abort_eq_reset, s.block.abort_status, s.block.abort_crcOut⟩

/-! ### The verdict (R124) -/

/-- Settles O34. -/
theorem verdictIsFirstFailingTest : Obligations.VerdictIsFirstFailingTest := by
  refine fun b => ⟨Block.finishResult_shortTag, Block.finishResult_lenOverflow, Block.finishResult_badTag,
    fun h ho ha hm hcrc => ?_, fun h ho ha hok => ?_⟩
  · rw [Block.finishResult_of_alpha h ho ha, if_pos ⟨hm, hcrc⟩]
  · rw [Block.finishResult_of_alpha h ho ha, if_neg]
    rintro ⟨hm, hcrc⟩
    rcases hok with hg | heq
    · cases hg.symm.trans hm
    · exact hcrc heq

section
variable {b : Block}

/-- With a whole tag and no overflow, only the tag and, in CHK mode, the CRC can fail. -/
theorem Block.finishResult_eq_ok_iff (h : ¬ b.tagcnt < 4) (ho : b.ovf = false) :
    b.finishResult = .ok ↔ tagAlpha b.tagb = true ∧ (b.mode = .chk → b.crcOut = b.crcRx) := by
  cases ha : tagAlpha b.tagb with
  | false => simp [Block.finishResult_badTag h ho ha]
  | true => simp [Block.finishResult_of_alpha h ho ha, Block.crcOut]

/-- Only the last test can answer CRC_MISMATCH, and it looks at MODE. -/
theorem Block.finishResult_ne_crcMismatch (hm : b.mode = .gen) : b.finishResult ≠ .crcMismatch := by
  by_cases h : b.tagcnt < 4
  · simp [Block.finishResult_shortTag h]
  · cases ho : b.ovf with
    | true => simp [Block.finishResult_lenOverflow h ho]
    | false =>
      cases ha : tagAlpha b.tagb with
      | false => simp [Block.finishResult_badTag h ho ha]
      | true => simp [Block.finishResult_of_alpha h ho ha, hm]

/-! ### FINISH (R126) -/

theorem Block.finish_of_computing (h : b.state = .tag ∨ b.state = .data) :
    b.finish = b.recordVerdict b.finishResult := by
  rcases b.finish_cases with ⟨-, hb⟩ | ⟨h', -⟩
  · exact hb
  · rcases h with h | h <;> simp [h] at h'

theorem Block.finish_of_not_computing (h : b.state = .idle ∨ b.state = .done) : b.finish = b.setSeqErr := by
  rcases b.finish_cases with ⟨h', -⟩ | ⟨-, hb⟩
  · rcases h with h | h <;> simp [h] at h'
  · exact hb

end

theorem exec_finish (s : State) : exec .finish s = .next (s.setBlock s.block.finish) := exec_write rfl s

theorem exec_finish_result {s t : State} (hs : s.block.state = .tag ∨ s.block.state = .data)
    (h : exec .finish s = .next t) : t.block.result = s.block.finishResult := by
  rw [exec_finish, Block.finish_of_computing hs] at h
  cases h
  rfl

/-- Settles O35: the invariants of TAG and of DATA say which tests of the verdict can hold there. -/
theorem finishRecordsVerdictOrSequenceError : Obligations.FinishRecordsVerdictOrSequenceError := by
  refine ⟨rfl, fun s hs => ?_, fun s hs => ?_, fun s t hinv hs h => ?_, fun s t hinv hs hcount h => ?_,
    fun _ => Block.finishResult_ne_crcMismatch, fun s t v h => ?_, ⟨_, rfl, by decide, by decide +kernel⟩⟩
  · rw [exec_finish, Block.finish_of_computing hs]
    rfl
  · rw [exec_finish, Block.finish_of_not_computing hs]
    rfl
  · rw [exec_finish_result (.inl hs) h]
    exact Block.finishResult_shortTag (hinv.tag hs).1
  · have htagcnt : s.block.tagcnt = 4 := (hinv.data hs).1
    have hovf : s.block.ovf = false := by
      refine Bool.eq_false_iff.2 fun ho => ?_
      simp [(hinv.ovf ho).1] at hcount
    rw [exec_finish_result (.inr hs) h]
    exact Block.finishResult_eq_ok_iff (by simp [htagcnt]) hovf
  · rw [(exec_next_block h).1]
    rfl

/-! ### RESULT over one step (R36, R243) -/

theorem StepEffect.result_cases {s : State} {c : Block} (h : StepEffect s c) :
    c.result = s.block.result ∨ s.NextRuns .finish ∨ s.NextResets ∨ ∃ i, s.NextRuns i ∧ isRestart i := by
  cases h with
  | finishes hr => exact .inr (.inl hr)
  | resets hr => exact .inr (.inr (.inl hr))
  | startsGen hr => exact .inr (.inr (.inr ⟨_, hr, .inl rfl⟩))
  | startsChk hr => exact .inr (.inr (.inr ⟨_, hr, .inr (.inl rfl)⟩))
  | aborts hr => exact .inr (.inr (.inr ⟨_, hr, .inr (.inr rfl)⟩))
  | _ => exact .inl (by simp)

/-- Settles O25. -/
theorem resultChangesOnlyAtFinishOrRestart : Obligations.ResultChangesOnlyAtFinishOrRestart :=
  fun _ _ h hne => (step_stepEffect h).result_cases.resolve_left hne

end Sys2Proof.Machine
end

section
/-! A reserved command inside a computation (R131): nothing but START and ABORT looks at CMDERR or writes it, so two
runs that differ in it alone go on differing in it alone. -/

namespace Sys2Proof.Machine

/-! ### Runs that complete, and the block they leave -/

/-- What a list of instructions, run in order, does to the block. -/
def blockEffects (is : List Instr) (b : Block) : Block := is.foldl (fun c i => blockEffect i c) b

theorem exec_completes (i : Instr) (s : State) : ∃ t, exec i s = .next t ∧ t.block = blockEffect i s.block := by
  cases hr : readTarget i with
  | none => exact ⟨_, exec_write hr s, rfl⟩
  | some r => exact ⟨_, exec_read hr s, (blockEffect_read hr _).symm⟩

theorem execAll_completes (is : List Instr) (s : State) :
    ∃ t, execAll is s = .next t ∧ t.block = blockEffects is s.block := by
  induction is generalizing s with
  | nil => exact ⟨s, rfl, rfl⟩
  | cons i is ih =>
    obtain ⟨u, hu, hub⟩ := exec_completes i s
    obtain ⟨t, ht, htb⟩ := ih u
    refine ⟨t, ?_, ?_⟩
    · simp only [execAll, hu, ht]
    · rw [htb, hub]
      rfl

/-! ### CMDERR decides nothing -/

section
variable (b : Block)

theorem Block.absorb_setCmdErr (x : Byte) : b.setCmdErr.absorb x = (b.absorb x).setCmdErr := by
  cases hs : b.state with
  | idle => rw [Block.absorb_idle hs, Block.absorb_idle (b := b.setCmdErr) hs]; rfl
  | done => rw [Block.absorb_done hs, Block.absorb_done (b := b.setCmdErr) hs]; rfl
  | tag => rw [Block.absorb_tag hs, Block.absorb_tag (b := b.setCmdErr) hs]; rfl
  | data =>
    by_cases hc : b.count = Config.maxCount
    · rw [Block.absorb_full hs hc, Block.absorb_full (b := b.setCmdErr) hs hc]; rfl
    · rw [Block.absorb_data hs hc, Block.absorb_data (b := b.setCmdErr) hs hc]; rfl

theorem Block.absorbAll_setCmdErr (xs : List Byte) : b.setCmdErr.absorbAll xs = (b.absorbAll xs).setCmdErr := by
  induction xs generalizing b with
  | nil => rfl
  | cons x xs ih => rw [Block.absorbAll_cons, Block.absorb_setCmdErr, ih, Block.absorbAll_cons]

theorem Block.finish_setCmdErr : b.setCmdErr.finish = b.finish.setCmdErr := by
  rcases b.finish_cases with ⟨hs, hb⟩ | ⟨hs, hb⟩
  · rw [hb, Block.finish_of_computing (b := b.setCmdErr) hs]
    rfl
  · rw [hb, Block.finish_of_not_computing (b := b.setCmdErr) hs]
    rfl

theorem blockEffect_setCmdErr {i : Instr} (hi : ¬ isRestart i) :
    blockEffect i b.setCmdErr = (blockEffect i b).setCmdErr := by
  cases i with
  | startGen => exact absurd (.inl rfl) hi
  | startChk => exact absurd (.inr (.inl rfl)) hi
  | abort => exact absurd (.inr (.inr rfl)) hi
  | finish => exact b.finish_setCmdErr
  | feedb x => exact b.absorb_setCmdErr x
  | feedw w => exact b.absorbAll_setCmdErr (wordBytes w)
  | _ => rfl

theorem blockEffects_setCmdErr {is : List Instr} (h : ∀ i ∈ is, ¬ isRestart i) :
    blockEffects is b.setCmdErr = (blockEffects is b).setCmdErr := by
  induction is generalizing b with
  | nil => rfl
  | cons i is ih =>
    obtain ⟨hi, his⟩ := List.forall_mem_cons.1 h
    calc blockEffects is (blockEffect i b.setCmdErr)
        = blockEffects is (blockEffect i b).setCmdErr := by rw [blockEffect_setCmdErr b hi]
      _ = (blockEffects is (blockEffect i b)).setCmdErr := ih _ his

end

/-! ### The reserved command (R131) -/

theorem exec_cmdRsv (v : Word) (s : State) : exec (.cmdRsv v) s = .next (s.setBlock s.block.setCmdErr) :=
  exec_write rfl s

theorem decode_reservedCommand {v : Word} (h : 5 ≤ v) : decode (Key.mk true 0 v) = .ok (.cmdRsv v) := by
  have hrsv : isReservedCommand v = true := decide_eq_true (by bv_omega)
  exact (decode_mk true 0 v).trans (congrArg _ (decodeCommand_reserved hrsv))

/-- A reserved command ahead of instructions without START and ABORT changes what they leave by CMDERR alone. -/
theorem execAll_cmdRsv_cons {is : List Instr} (h : ∀ i ∈ is, ¬ isRestart i) (v : Word) (s : State) :
    ∃ t u, execAll (.cmdRsv v :: is) s = .next t ∧ execAll is s = .next u ∧ t.block = u.block.setCmdErr := by
  obtain ⟨t, ht, htb⟩ := execAll_completes (.cmdRsv v :: is) s
  obtain ⟨u, hu, hub⟩ := execAll_completes is s
  refine ⟨t, u, ht, hu, ?_⟩
  rw [htb, hub]
  exact blockEffects_setCmdErr s.block h

/-- Settles O37. -/
theorem reservedCommandSetsOnlyCmdErr : Obligations.ReservedCommandSetsOnlyCmdErr := by
  refine ⟨fun _ => decode_reservedCommand, fun v s _ => exec_cmdRsv v s, fun v between s _ hbetween => ?_,
    ⟨_, exec_cmdRsv 5 _, by decide⟩⟩
  have hnone : ∀ i ∈ between ++ [.finish], ¬ isRestart i := by
    intro i hi
    rcases List.mem_append.1 hi with hi | hi
    · exact (hbetween i hi).2
    · rw [List.mem_singleton.1 hi]
      simp [isRestart]
  obtain ⟨t, u, ht, hu, hblock⟩ := execAll_cmdRsv_cons hnone v s
  exact ⟨t, u, ht, hu, by rw [hblock, Block.setCmdErr_result], hblock⟩

end Sys2Proof.Machine
end

section
/-! The feeds (R150 to R156): each arm of absorb as the whole block it leaves, the feeds outside a computation or beyond
the maximum COUNT, which set one flag and stop there, and the split of a byte string into feeds. -/

namespace Sys2Proof.Machine

/-! ### absorb where it discards the byte (R151) -/

section
variable {b : Block}

theorem Block.absorb_of_not_computing (h : b.state = .idle ∨ b.state = .done) (x : Byte) :
    b.absorb x = b.setSeqErr := by
  rcases h with h | h
  · exact Block.absorb_idle h x
  · exact Block.absorb_done h x

/-- A block that one byte, whichever it is, takes to a block that absorb keeps, is taken there by any bytes. -/
theorem Block.absorbAll_of_fixed {c : Block} (hb : ∀ x, b.absorb x = c) (hc : ∀ x, c.absorb x = c) {xs : List Byte}
    (hne : xs ≠ []) : b.absorbAll xs = c := by
  cases xs with
  | nil => exact absurd rfl hne
  | cons x xs =>
    rw [Block.absorbAll_cons, hb]
    exact Block.absorbAll_keeps (P := (· = c)) (fun d y hd => by rw [hd, hc]) xs rfl

theorem Block.absorbAll_of_not_computing (h : b.state = .idle ∨ b.state = .done) {xs : List Byte} (hne : xs ≠ []) :
    b.absorbAll xs = b.setSeqErr :=
  Block.absorbAll_of_fixed (Block.absorb_of_not_computing h) (Block.absorb_of_not_computing (b := b.setSeqErr) h) hne

theorem Block.absorbAll_full (hs : b.state = .data) (hc : b.count = Config.maxCount) {xs : List Byte}
    (hne : xs ≠ []) : b.absorbAll xs = b.setOvf :=
  Block.absorbAll_of_fixed (Block.absorb_full hs hc) (Block.absorb_full (b := b.setOvf) hs hc) hne

end

/-! ### FEEDB (R155) -/

theorem exec_feedb (x : Byte) (s : State) : exec (.feedb x) s = .next (s.setBlock (s.block.absorb x)) :=
  exec_write rfl s

theorem exec_feedb_tag {s : State} (h : s.block.state = .tag) (x : Byte) :
    exec (.feedb x) s = .next (s.setBlock (s.block.takeTagByte x)) := by
  rw [exec_feedb, Block.absorb_tag h]

/-- Settles O39, by the arms of absorb. -/
theorem feedbAbsorbsOneByte : Obligations.FeedbAbsorbsOneByte := by
  refine ⟨decode_mk true 2, fun x s hs => ?_, fun x s hs _ => ?_, fun x s hs hc => ?_, fun x s hs hc => ?_,
    ⟨_, rfl, by decide⟩⟩
  · rw [exec_feedb, Block.absorb_of_not_computing hs]
    rfl
  · refine ⟨s.block.tagb.set s.block.tagcnt x, Tag.bytes_set _ _ _, ?_⟩
    rw [exec_feedb_tag hs, ← hs]
    rfl
  · rw [exec_feedb, Block.absorb_full hs hc]
    rfl
  · rw [exec_feedb, Block.absorb_data hs hc]
    rfl

/-! ### Sequences of feeds (R151, R152) -/

theorem feedBytes_ne_nil {i : Instr} (h : isFeed i = true) : feedBytes i ≠ [] := by
  cases i with
  | feedb x => exact List.cons_ne_nil _ _
  | feedw w => exact List.cons_ne_nil _ _
  | _ => cases h

theorem flatMap_feedBytes_ne_nil {feeds : List Instr} (h : ∀ i ∈ feeds, isFeed i = true) (hne : feeds ≠ []) :
    feeds.flatMap feedBytes ≠ [] := by
  cases feeds with
  | nil => exact absurd rfl hne
  | cons i feeds =>
    rw [List.flatMap_cons]
    exact List.append_ne_nil_of_left_ne_nil (feedBytes_ne_nil (h i List.mem_cons_self)) _

/-- Settles O40: a byte that absorb discards leaves a block in the same arm, so every later byte is discarded too. -/
theorem feedsOutsideRoomSetOnlyTheirFlag : Obligations.FeedsOutsideRoomSetOnlyTheirFlag := by
  refine ⟨fun x s t hs hcnt h => ?_, fun feeds s h hne hs hc => ?_, fun feeds s h hne hs => ?_⟩
  · have hlast : s.block.tagcnt + 1 = 4 := by rw [hcnt]; rfl
    rw [exec_feedb_tag hs] at h
    cases h
    exact ⟨Block.takeTagByte_state_last hlast x, hlast, rfl⟩
  · rw [execAll_feeds h, Block.absorbAll_full hs hc (flatMap_feedBytes_ne_nil h hne)]
    rfl
  · rw [execAll_feeds h, Block.absorbAll_of_not_computing hs (flatMap_feedBytes_ne_nil h hne)]
    rfl

/-- Settles O41: both sides absorb the same bytes in the same order. -/
theorem feedSplitDoesNotMatter : Obligations.FeedSplitDoesNotMatter := by
  intro feeds s h
  rw [execAll_feeds h, execAll_map_feedb]

/-! ### FEEDW (R156) -/

theorem exec_feedw (w : Word) (s : State) :
    exec (.feedw w) s = .next (s.setBlock (s.block.absorbAll (wordBytes w))) := exec_write rfl s

/-- Settles O42: the four absorbs of FEEDW are those of four FEEDB. -/
theorem feedwAbsorbsFourBytesInOrder : Obligations.FeedwAbsorbsFourBytesInOrder := by
  refine ⟨decode_mk true 3, fun w s => ?_, fun w s hs => ?_, ⟨_, rfl, by decide +kernel⟩⟩
  · exact ⟨_, _, _, _, exec_feedb _ _, exec_feedb _ _, exec_feedb _ _, exec_feedb _ _, exec_feedw w s⟩
  · have hfeed : isFeed (.feedw w) = true := rfl
    rw [exec_feed hfeed, Block.absorbAll_of_not_computing hs (feedBytes_ne_nil hfeed)]
    rfl

end Sys2Proof.Machine
end

section
/-! Register access (R170 to R185): SETRX and what reads CRC_RX, the values of the reads, and the ignored writes. In GEN
mode nothing but RD.CRC_RX looks at CRC_RX, so two runs that differ in it alone go on differing in it alone. -/

namespace Sys2Proof.Machine

/-! ### CRC_RX decides nothing in GEN mode (R124, R170) -/

section
variable (v : Word) (b : Block)

theorem Block.absorb_setCrcRx (x : Byte) : (b.setCrcRx v).absorb x = (b.absorb x).setCrcRx v := by
  rcases b.absorb_cases x with ⟨hs, hb⟩ | ⟨hs, hb⟩ | ⟨hs, hc, hb⟩ | ⟨hs, hc, hb⟩ <;> rw [hb]
  · exact Block.absorb_of_not_computing (b := b.setCrcRx v) hs x
  · exact Block.absorb_tag (b := b.setCrcRx v) hs x
  · exact Block.absorb_full (b := b.setCrcRx v) hs hc x
  · exact Block.absorb_data (b := b.setCrcRx v) hs hc x

theorem Block.absorbAll_setCrcRx (xs : List Byte) : (b.setCrcRx v).absorbAll xs = (b.absorbAll xs).setCrcRx v := by
  induction xs generalizing b with
  | nil => rfl
  | cons x xs ih => rw [Block.absorbAll_cons, Block.absorb_setCrcRx, ih, Block.absorbAll_cons]

/-- Only RD.CRC_RX returns CRC_RX. -/
theorem Block.readReg_setCrcRx {r : Reg} (hr : r ≠ .crcRx) : (b.setCrcRx v).readReg r = b.readReg r := by
  cases r with
  | crcRx => exact absurd rfl hr
  | _ => rfl

variable {b} (hm : b.mode = .gen)
include hm

/-- Only the last test of the verdict looks at CRC_RX, and it fails in GEN mode before it does. -/
theorem Block.finishResult_setCrcRx : (b.setCrcRx v).finishResult = b.finishResult := by
  simp [Block.finishResult, hm]

theorem Block.finish_setCrcRx : (b.setCrcRx v).finish = b.finish.setCrcRx v := by
  rcases b.finish_cases with ⟨hs, hb⟩ | ⟨hs, hb⟩
  · rw [hb, Block.finish_of_computing (b := b.setCrcRx v) hs, Block.finishResult_setCrcRx v hm]
    rfl
  · rw [hb, Block.finish_of_not_computing (b := b.setCrcRx v) hs]
    rfl

/-- SETRX makes the two values of CRC_RX equal; any other write carries them along. -/
theorem blockEffect_setCrcRx (i : Instr) :
    ∃ w, blockEffect i (b.setCrcRx v) = (blockEffect i b).setCrcRx w := by
  cases i with
  | setrx w => exact ⟨w, rfl⟩
  | finish => exact ⟨v, Block.finish_setCrcRx v hm⟩
  | feedb x => exact ⟨v, b.absorb_setCrcRx v x⟩
  | feedw w => exact ⟨v, b.absorbAll_setCrcRx v (wordBytes w)⟩
  | _ => exact ⟨v, rfl⟩

/-- START.CHK alone leaves GEN mode. -/
theorem blockEffect_mode_gen {i : Instr} (hi : i ≠ .startChk) : (blockEffect i b).mode = .gen := by
  cases i with
  | startChk => exact absurd rfl hi
  | startGen => rfl
  | abort => rfl
  | _ => simpa [blockEffect] using hm

end

theorem readTarget_eq_crcRx {i : Instr} (h : readTarget i = some .crcRx) : i = .rdCrcRx := by
  cases i with
  | rdCrcRx => rfl
  | _ => cases h

/-- One instruction on two machines in GEN mode that differ in CRC_RX alone. -/
theorem exec_setCrcRx {i : Instr} {s : State} (v : Word) (hm : s.block.mode = .gen) (hi : i ≠ .rdCrcRx) :
    ∃ t w, exec i s = .next t ∧ t.block = blockEffect i s.block ∧
      exec i (s.setBlock (s.block.setCrcRx v)) = .next (t.setBlock (t.block.setCrcRx w)) := by
  cases hr : readTarget i with
  | none =>
    obtain ⟨w, hw⟩ := blockEffect_setCrcRx v hm i
    refine ⟨_, w, exec_write hr s, rfl, ?_⟩
    rw [exec_write hr, State.setBlock_block, hw]
    rfl
  | some r =>
    have hreg : r ≠ .crcRx := fun h => hi (readTarget_eq_crcRx (hr.trans (congrArg some h)))
    refine ⟨_, v, exec_read hr s, (blockEffect_read hr _).symm, ?_⟩
    rw [exec_read hr, State.setBlock_block, Block.readReg_setCrcRx v s.block hreg]
    rfl

/-- Two runs from machines in GEN mode that differ in CRC_RX alone end in machines that do. -/
theorem execAll_setCrcRx {is : List Instr} {s : State} (v : Word) (hm : s.block.mode = .gen)
    (h : ∀ i ∈ is, i ≠ .startChk ∧ i ≠ .rdCrcRx) :
    ∃ t w, execAll is s = .next t ∧
      execAll is (s.setBlock (s.block.setCrcRx v)) = .next (t.setBlock (t.block.setCrcRx w)) := by
  induction is generalizing s v with
  | nil => exact ⟨s, v, rfl, rfl⟩
  | cons i is ih =>
    obtain ⟨⟨hchk, hrx⟩, his⟩ := List.forall_mem_cons.1 h
    obtain ⟨u, w, hu, hub, hu'⟩ := exec_setCrcRx v hm hrx
    have hum : u.block.mode = .gen := by rw [hub, blockEffect_mode_gen hm hchk]
    obtain ⟨t, w', ht, ht'⟩ := ih w hum his
    exact ⟨t, w', by rw [execAll, hu]; exact ht, by rw [execAll, hu']; exact ht'⟩

/-- Settles O45. -/
theorem generateModeIgnoresCrcRx : Obligations.GenerateModeIgnoresCrcRx := by
  intro instrs s v hm h
  obtain ⟨t, w, ht, hu⟩ := execAll_setCrcRx v hm h
  exact ⟨t, _, ht, hu, rfl, rfl⟩

/-! ### SETRX and RD.CRC_RX (R170, R174) -/

theorem exec_setrx (v : Word) (s : State) : exec (.setrx v) s = .next (s.setBlock (s.block.setCrcRx v)) :=
  exec_write rfl s

theorem exec_rdCrcRx (s : State) : exec .rdCrcRx s = .next (s.observe s.block.crcRx) :=
  exec_read (r := .crcRx) rfl s

/-- Settles O44. -/
theorem setrxWritesAndReadsBack : Obligations.SetrxWritesAndReadsBack := by
  refine ⟨fun v => ⟨decode_mk true 4 v, decode_mk false 4 v⟩, fun v s => ⟨exec_setrx v s, ?_⟩, exec_rdCrcRx, rfl,
    fun v b => Block.finishResult_setCrcRx v, fun b hm h ho ha => ?_⟩
  · rw [execAll, exec_setrx]
    rfl
  · rw [Block.finishResult_of_alpha h ho ha]
    simp [hm, Block.crcOut]

/-! ### Reads (R171 to R179) -/

theorem isReservedSlot_of_le {n : Slot} (h : 8 ≤ n) : isReservedSlot n = true := decide_eq_true h

theorem decode_rdRsv {n : Slot} (h : 8 ≤ n) (x : Word) : decode (Key.mk false n x) = .ok (.rdRsv n) :=
  (decode_mk false n x).trans (congrArg _ (decodeRead_reserved (isReservedSlot_of_le h)))

/-- FINISH leaves ACC, which CRC_OUT is live from (R45). -/
@[simp] theorem Block.finish_crcOut (b : Block) : b.finish.crcOut = b.crcOut := by
  rcases b.finish_cases with ⟨-, h⟩ | ⟨-, h⟩ <;> simp [Block.crcOut, h]

/-- CRC_OUT is the CRC of the bytes absorbed (R31, R45). -/
theorem Block.Absorbed.crcOut {m : Mode} {v : Word} {bs : List Byte} {b : Block} (h : b.Absorbed m v bs) :
    b.crcOut = crc32 (bs.take (4 + 0xFFFFFFFF)) := by
  rw [Block.crcOut, h.acc, crc32]

theorem execAll_finish_rdCrcOut {finish : List Instr} (h : finish = [] ∨ finish = [.finish]) (s : State) :
    ∃ t, execAll (finish ++ [.rdCrcOut]) s = .next t ∧ t.reads = s.reads ++ [s.block.crcOut] := by
  rcases h with rfl | rfl
  · exact ⟨_, rfl, rfl⟩
  · exact ⟨_, rfl, congrArg (s.reads ++ [·]) s.block.finish_crcOut⟩

theorem execAll_stream_rdCrcOut {start : Instr} {feeds finish : List Instr}
    (hstart : start = .startGen ∨ start = .startChk) (hfeeds : ∀ i ∈ feeds, isFeed i = true)
    (hfinish : finish = [] ∨ finish = [.finish]) (s : State) :
    ∃ t, execAll (start :: (feeds ++ finish ++ [.rdCrcOut])) s = .next t ∧
      t.reads = s.reads ++ [crc32 ((feeds.flatMap feedBytes).take (4 + 0xFFFFFFFF))] := by
  obtain ⟨m, hexec, -⟩ := exec_start hstart
  have hrun := execAll_feeds hfeeds (s.setBlock (s.block.start m))
  have habs := (s.block.start_absorbed m).absorbAll (feeds.flatMap feedBytes)
  obtain ⟨t, ht, hreads⟩ := execAll_finish_rdCrcOut hfinish
    (s.setBlock ((s.block.start m).absorbAll (feeds.flatMap feedBytes)))
  refine ⟨t, ?_, ?_⟩
  · rw [execAll, hexec, List.append_assoc]
    exact (execAll_append _ hrun).trans ht
  · rw [hreads, State.setBlock_block, habs.crcOut]
    rfl

theorem execAll_restart_rdCrcOut {i : Instr} (hi : isRestart i) (s : State) :
    ∃ t, execAll [i, .rdCrcOut] s = .next t ∧ t.reads = s.reads ++ [0] := by
  rcases hi with rfl | rfl | rfl
  · exact ⟨_, rfl, congrArg (s.reads ++ [·]) (s.block.start_crcOut .gen)⟩
  · exact ⟨_, rfl, congrArg (s.reads ++ [·]) (s.block.start_crcOut .chk)⟩
  · exact ⟨_, rfl, congrArg (s.reads ++ [·]) s.block.abort_crcOut⟩

/-- Settles O46. -/
theorem readsReturnTheirRegister : Obligations.ReadsReturnTheirRegister := by
  refine ⟨fun x => ?_, fun n s => ?_, fun _ _ _ s hstart hfeeds hfinish =>
    execAll_stream_rdCrcOut hstart hfeeds hfinish s, fun _ s hi => execAll_restart_rdCrcOut hi s,
    ⟨_, rfl, by decide⟩, fun b => ⟨rfl, rfl⟩, ⟨_, execAll_pseudoGen _ _ State.reset rfl, by decide +kernel⟩, ?_⟩
  · exact ⟨decode_mk false 0 x, decode_mk false 2 x, decode_mk false 3 x, decode_mk false 4 x, decode_mk false 5 x,
      decode_mk false 6 x, decode_mk false 7 x, fun n hn => decode_rdRsv hn x⟩
  · exact ⟨exec_read (r := .cmd) rfl s, exec_read (r := .dinB) rfl s, exec_read (r := .dinW) rfl s, exec_rdCrcRx s,
      exec_read (r := .crcOut) rfl s, exec_read (r := .count) rfl s, exec_read (r := .tag) rfl s,
      fun _ => exec_read (r := .reserved) rfl s⟩
  · rintro start (rfl | rfl)
    · exact ⟨⟨_, rfl, by decide⟩, ⟨_, rfl, by decide +kernel⟩⟩
    · exact ⟨⟨_, rfl, by decide⟩, ⟨_, rfl, by decide +kernel⟩⟩

/-! ### Ignored writes (R180 to R185) -/

theorem decode_wrRsv {n : Slot} (h : 8 ≤ n) (x : Word) : decode (Key.mk true n x) = .ok (.wrRsv n x) :=
  (decode_mk true n x).trans (congrArg _ (decodeWrite_reserved (isReservedSlot_of_le h) x))

/-- Settles O47. -/
theorem ignoredWritesChangeNothing : Obligations.IgnoredWritesChangeNothing := by
  refine ⟨fun x => ?_, fun n x s => ?_⟩
  · exact ⟨decode_mk true 1 x, decode_mk true 5 x, decode_mk true 6 x, decode_mk true 7 x,
      fun n hn => decode_wrRsv hn x⟩
  · exact ⟨exec_write rfl s, exec_write rfl s, exec_write rfl s, exec_write rfl s, fun _ => exec_write rfl s⟩

end Sys2Proof.Machine
end

section
/-! Errors (R200 to R204): every transaction completes, it raises at most one kind of flag, and host errors stay out of
the verdict. -/

namespace Sys2Proof.Machine

/-! ### Completion (R200, R236) -/

/-- Settles O48: a write leaves the observation alone, and a read adds its value to it. -/
theorem everyTransactionCompletesInEveryState : Obligations.EveryTransactionCompletesInEveryState := by
  intro i s
  cases hr : readTarget i with
  | none => exact ⟨_, exec_write hr s, rfl, List.prefix_refl _⟩
  | some r => exact ⟨_, exec_read hr s, rfl, List.prefix_append _ _⟩

/-! ### The flags of one transaction (R203) -/

/-- Inside a computation absorb stays inside it and sets no SEQERR (R150). -/
theorem Block.absorbAll_seqerr_of_computing {b : Block} (hb : b.state = .tag ∨ b.state = .data) (xs : List Byte) :
    (b.absorbAll xs).seqerr = b.seqerr := by
  refine (Block.absorbAll_keeps (P := fun c => (c.state = .tag ∨ c.state = .data) ∧ c.seqerr = b.seqerr) ?_ xs
    ⟨hb, rfl⟩).2
  rintro c x ⟨hs, hseq⟩
  constructor
  · rcases c.absorbAll_state [x] with h | ⟨h, -⟩
    · exact h ▸ hs
    · exact .inr h
  · rcases c.absorb_cases x with ⟨hn, -⟩ | ⟨-, h⟩ | ⟨-, -, h⟩ | ⟨-, -, h⟩
    · rcases hs with hs | hs <;> simp [hs] at hn
    all_goals simp [h, hseq]

/-- How the three sticky flags, and RESULT with them, can go from block b to block c in one transaction. -/
inductive FlagChange (b c : Block) : Prop where
  | clears (ovf : c.ovf = false) (seqerr : c.seqerr = false) (cmderr : c.cmderr = false)
  | keeps (ovf : c.ovf = b.ovf) (seqerr : c.seqerr = b.seqerr) (cmderr : c.cmderr = b.cmderr)
  | onlyOvf (seqerr : c.seqerr = b.seqerr) (cmderr : c.cmderr = b.cmderr) (result : c.result = b.result)
  | onlySeqerr (ovf : c.ovf = b.ovf) (cmderr : c.cmderr = b.cmderr) (result : c.result = b.result)
  | onlyCmderr (ovf : c.ovf = b.ovf) (seqerr : c.seqerr = b.seqerr) (result : c.result = b.result)

/-- A feed can set OVF inside a computation and SEQERR outside one. -/
theorem Block.absorbAll_flagChange (b : Block) {xs : List Byte} (hne : xs ≠ []) : FlagChange b (b.absorbAll xs) := by
  by_cases hb : b.state = .tag ∨ b.state = .data
  · exact .onlyOvf (Block.absorbAll_seqerr_of_computing hb xs) (by simp) (by simp)
  · have hout : b.state = .idle ∨ b.state = .done := by cases h : b.state <;> simp [h] at hb ⊢
    rw [Block.absorbAll_of_not_computing hout hne]
    exact .onlySeqerr rfl rfl rfl

theorem Block.finish_flagChange (b : Block) : FlagChange b b.finish := by
  rcases b.finish_cases with ⟨-, h⟩ | ⟨-, h⟩ <;> rw [h]
  · exact .keeps rfl rfl rfl
  · exact .onlySeqerr rfl rfl rfl

theorem blockEffect_flagChange (i : Instr) (b : Block) : FlagChange b (blockEffect i b) := by
  cases i with
  | startGen | startChk | abort => exact .clears rfl rfl rfl
  | finish => exact b.finish_flagChange
  | cmdRsv v => exact .onlyCmderr rfl rfl rfl
  | feedb x => exact b.absorbAll_flagChange (List.cons_ne_nil x [])
  | feedw w => exact b.absorbAll_flagChange (feedBytes_ne_nil (i := .feedw w) rfl)
  | _ => exact .keeps rfl rfl rfl

/-- Settles O49: in each kind of flag change, a flag that rises is the only one that may differ. -/
theorem oneTransactionSetsOneKindOfFlag : Obligations.OneTransactionSetsOneKindOfFlag := by
  intro i s t h
  rw [(exec_next_block h).1]
  cases blockEffect_flagChange i s.block with
  | clears ho hs hc => simp [ho, hs, hc]
  | keeps ho hs hc => simp +contextual [ho, hs, hc]
  | onlyOvf hs hc hr => simp +contextual [hs, hc, hr]
  | onlySeqerr ho hc hr => simp +contextual [ho, hc, hr]
  | onlyCmderr ho hs hr => simp +contextual [ho, hs, hr]

/-! ### Host errors and the verdict (R204) -/

theorem Block.status_hostErrors (b : Block) :
    b.status.extractLsb' 7 2 = BitVec.ofBool b.seqerr ++ BitVec.ofBool b.cmderr := by
  refine BitVec.eq_of_getLsbD_eq fun i hi => ?_
  simp only [Block.status, BitVec.getLsbD_extractLsb', BitVec.getLsbD_append]
  interval_cases i <;> simp

theorem Block.cleanRun_iff (b : Block) : b.cleanRun = true ↔ b.cmderr = false ∧ b.seqerr = false := by
  rw [Block.cleanRun, b.status_hostErrors]
  cases b.cmderr <;> cases b.seqerr <;> decide

/-- Settles O52: the verdict function looks at neither flag. -/
theorem hostErrorsShowInStatusNotInVerdict : Obligations.HostErrorsShowInStatusNotInVerdict :=
  fun b _ _ => ⟨b.cleanRun_iff, rfl⟩

end Sys2Proof.Machine
end

section
/-! What the readable registers say (R218): each stored element is read off one of them. -/

namespace Sys2Proof.Machine

theorem SeqState.code_injective : Function.Injective SeqState.code := by
  intro a b h
  cases a <;> cases b <;> simp [SeqState.code] at h ⊢

theorem Result.code_injective : Function.Injective Result.code := by
  intro a b h
  cases a <;> cases b <;> simp [Result.code] at h ⊢

theorem Mode.eq_of_decide_chk_eq {m m' : Mode} (h : decide (m = .chk) = decide (m' = .chk)) : m = m' := by
  cases m <;> cases m' <;> simp at h ⊢

/-- STATUS holds every stored element that has no register of its own (R40). -/
theorem Block.elements_eq_of_status_eq {b c : Block} (h : b.status = c.status) :
    b.state = c.state ∧ b.mode = c.mode ∧ b.tagcnt = c.tagcnt ∧ b.ovf = c.ovf ∧ b.cmderr = c.cmderr ∧
      b.seqerr = c.seqerr ∧ b.result = c.result := by
  obtain ⟨hovf, hcmd, hseq⟩ := b.status_stickyFlags
  obtain ⟨hovf', hcmd', hseq'⟩ := c.status_stickyFlags
  refine ⟨SeqState.code_injective ?_, Mode.eq_of_decide_chk_eq ?_, ?_, ?_, ?_, ?_,
    Result.code_injective ?_⟩
  · rw [← b.status_state, h, c.status_state]
  · rw [← b.status_mode, h, c.status_mode]
  · rw [← b.status_tagcnt, h, c.status_tagcnt]
  · rw [← hovf, h, hovf']
  · rw [← hcmd, h, hcmd']
  · rw [← hseq, h, hseq']
  · rw [← b.status_result, h, c.status_result]

theorem Block.wordBytes_tagWord (b : Block) : wordBytes b.tagWord = b.tagb.bytes := wordBytes_wordOfBytes _ _ _ _

theorem Block.tagb_eq_of_tagWord_eq {b c : Block} (h : b.tagWord = c.tagWord) : b.tagb = c.tagb :=
  Tag.bytes_injective (by rw [← b.wordBytes_tagWord, h, c.wordBytes_tagWord])

/-- Settles O54: TAGB from TAG, ACC from CRC_OUT, COUNT and CRC_RX from their registers, the others from STATUS. -/
theorem registersRevealWholeState : Obligations.RegistersRevealWholeState := by
  intro b c h
  obtain ⟨hstate, hmode, htagcnt, hovf, hcmd, hseq, hres⟩ := Block.elements_eq_of_status_eq (h .status)
  have htagb : b.tagb = c.tagb := Block.tagb_eq_of_tagWord_eq (h .tag)
  have hacc : b.acc = c.acc := crcFinal_injective (h .crcOut)
  have hcount : b.count = c.count := h .count
  have hcrcRx : b.crcRx = c.crcRx := h .crcRx
  cases b
  cases c
  rw [Block.mk.injEq]
  exact ⟨hstate, hmode, htagcnt, htagb, hacc, hcount, hcrcRx, hovf, hcmd, hseq, hres⟩

end Sys2Proof.Machine
end

section
/-! CHK (R98, R204, R245): the block a whole validation leaves, and when the host accepts it. -/

namespace Sys2Proof.Machine

/-- SETRX after START gives the same block as before it (R123), so nothing is absorbed yet. -/
theorem Block.start_setCrcRx_absorbed (m : Mode) (v : Word) (b : Block) : ((b.start m).setCrcRx v).Absorbed m v [] :=
  (b.setCrcRx v).start_absorbed m

/-- A CHK run ends in the block FINISH makes of START, CRC_RX and the bytes, and returns its STATUS. -/
theorem execAll_pseudoChk (tag data : List Byte) (v : Word) (s : State) {b : Block}
    (hb : (((s.block.start .chk).setCrcRx v).absorbAll (tag ++ data)).finish = b) :
    execAll (pseudoChk tag data v) s = .next { s with block := b, reads := s.reads ++ [b.status] } := by
  have hfeed := execAll_pseudoFeed (tag ++ data) (s.setBlock ((s.block.start .chk).setCrcRx v))
  subst hb
  exact execAll_append [.finish, .rdStatus] hfeed

/-- A chunk is judged OK exactly when its data fits COUNT, its tag is alphabetic and, in CHK mode, its CRC is the
received one. -/
theorem Block.Absorbed.finishResult_eq_ok_iff_of_chunk {m : Mode} {v : Word} {tag : Tag} {data : List Byte} {b : Block}
    (h : b.Absorbed m v (tag.bytes ++ data)) :
    b.finishResult = .ok ↔
      data.length ≤ 0xFFFFFFFF ∧ tagAlpha tag = true ∧ (m = .chk → crc32 (tag.bytes ++ data) = v) := by
  have hwhole : ¬ b.tagcnt < 4 := h.not_tagcnt_lt (by rw [Tag.bytes_append_length]; omega)
  by_cases hlen : data.length ≤ 0xFFFFFFFF
  · have hovf : b.ovf = false := h.ovf_eq_false (by rw [Tag.bytes_append_length]; omega)
    rw [Block.finishResult_eq_ok_iff hwhole hovf, h.tagb_of_chunk, h.mode, h.crcOut_of_chunk hlen, h.crcRx]
    simp [hlen]
  · have hovf : b.ovf = true := h.ovf.2 (by rw [Tag.bytes_append_length]; omega)
    simp [Block.finishResult_lenOverflow hwhole hovf, hlen]

theorem Block.hostAccepts_iff (declared : Word) (b : Block) :
    b.hostAccepts declared = true ↔ b.mode = .chk ∧ b.result = .ok ∧ b.count = declared := by
  simp [Block.hostAccepts, and_assoc]

/-- Settles O51: data longer than COUNT can hold is judged LEN_OVERFLOW, and no declared length is that long. -/
theorem hostAcceptsExactlyIntactChunks : Obligations.HostAcceptsExactlyIntactChunks := by
  intro tag data received declared s
  have h := (s.block.start_setCrcRx_absorbed .chk received).absorbAll (tag.bytes ++ data)
  rw [List.nil_append] at h
  refine ⟨_, execAll_pseudoChk tag.bytes data received s h.finish, ?_⟩
  rw [Block.hostAccepts_iff, Block.recordVerdict_mode, h.mode, Block.recordVerdict_result,
    h.finishResult_eq_ok_iff_of_chunk, Block.recordVerdict_count]
  have hdeclared := declared.isLt
  by_cases hlen : data.length ≤ 0xFFFFFFFF
  · have hcount : BitVec.ofNat 32 data.length = declared ↔ data.length = declared.toNat := by
      rw [← BitVec.toNat_inj, BitVec.toNat_ofNat, Nat.mod_eq_of_lt (by omega)]
    rw [h.count_of_chunk hlen, hcount]
    simp [hlen, and_assoc, eq_comm (a := received)]
  · have hne : data.length ≠ declared.toNat := by omega
    simp [hlen, hne]

end Sys2Proof.Machine
end

section
/-! Steps and the script (R236): which events have a step, when a step exists, and what it runs. -/

namespace Sys2Proof.Machine

/-! ### The events that have a step (R93, R231) -/

theorem HostEvent.txn_admissible_iff (k : Key) : (HostEvent.txn k).Admissible ↔ ∃ i, decode k = .ok i := by
  cases h : decode k <;> simp [HostEvent.Admissible, HostEvent.refusal, h]

theorem HostEvent.txn_admissible_iff_pad (k : Key) : (HostEvent.txn k).Admissible ↔ k.pad = 0 := by
  simp [HostEvent.txn_admissible_iff, decode_eq_ok_iff]

theorem HostEvent.reset_admissible : HostEvent.reset.Admissible := HostEvent.refusal_reset

theorem HostEvent.cutOff_not_admissible (k : Key) : ¬ (HostEvent.cutOff k).Admissible := by
  simp [HostEvent.Admissible]

/-- The two reasons an event can have no step. -/
theorem HostEvent.refusal_eq_some {e : HostEvent} {r : Refusal} (h : e.refusal = some r) :
    r = .notATransaction ∨ r = .cutOffTransaction := by
  cases e with
  | txn k =>
    cases hd : decode k with
    | ok i => simp [HostEvent.refusal_txn_of_ok hd] at h
    | error err => exact .inl (by simpa [HostEvent.refusal, hd] using h.symm)
  | reset => cases h
  | cutOff k => exact .inr (Option.some.inj h).symm

/-! ### Scripts that are refused -/

/-- A script is refused for the reason of one of its events. -/
theorem exists_refusal_of_scriptRefusal {es : List HostEvent} {r : Refusal} (h : scriptRefusal es = some r) :
    ∃ e ∈ es, e.refusal = some r := by
  induction es with
  | nil => cases h
  | cons e rest ih =>
    cases he : e.refusal with
    | some r' => exact ⟨e, List.mem_cons_self, by simpa [scriptRefusal, he] using h⟩
    | none =>
      obtain ⟨e', hmem, hr⟩ := ih (by simpa [scriptRefusal, he] using h)
      exact ⟨e', List.mem_cons_of_mem _ hmem, hr⟩

theorem step_of_scriptRefusal {s : State} {r : Refusal} (h : scriptRefusal s.script = some r) :
    step s = .refused r := by
  simp [step, fetchEvent, h]

theorem step_of_script_nil {s : State} (h : s.script = []) : step s = .refused .scriptEnded := by
  simp [step, fetchEvent, h]

/-- A script with an event that has no step is refused by one of the two names, wherever that event stands. -/
theorem step_of_not_admissible {s : State} (h : ∃ e ∈ s.script, ¬ e.Admissible) :
    step s = .refused .notATransaction ∨ step s = .refused .cutOffTransaction := by
  cases hr : scriptRefusal s.script with
  | none =>
    obtain ⟨e, hmem, hne⟩ := h
    exact absurd (scriptRefusal_eq_none_iff.1 hr e hmem) hne
  | some r =>
    rw [step_of_scriptRefusal hr]
    obtain ⟨e, -, he⟩ := exists_refusal_of_scriptRefusal hr
    exact (HostEvent.refusal_eq_some he).imp (congrArg _) (congrArg _)

/-! ### Scripts that step -/

theorem step_completes {s : State} (hne : s.script ≠ []) (hadm : ∀ e ∈ s.script, e.Admissible) :
    ∃ t, step s = .next t := by
  obtain ⟨e, rest, hs⟩ := List.exists_cons_of_ne_nil hne
  rw [hs, List.forall_mem_cons] at hadm
  obtain ⟨he, hrest⟩ := hadm
  cases e with
  | txn k =>
    obtain ⟨i, hd⟩ := (HostEvent.txn_admissible_iff k).1 he
    obtain ⟨t, ht, -⟩ := exec_completes i { s with script := rest }
    exact ⟨t, (step_txn hs hrest hd).trans ht⟩
  | reset => exact ⟨_, step_reset hs hrest⟩
  | cutOff k => exact absurd he (HostEvent.cutOff_not_admissible k)

/-- Settles O55. -/
theorem stepRunsDecodedTransaction : Obligations.StepRunsDecodedTransaction :=
  fun _ _ _ _ hs hd hrest => step_txn hs hrest hd

/-- Settles O56: a script that is empty or not admissible is refused, and every other one steps. -/
theorem stepsExistExactlyForAdmissibleScripts : Obligations.StepsExistExactlyForAdmissibleScripts := by
  refine ⟨fun s => ⟨?_, fun ⟨hne, hadm⟩ => step_completes hne hadm⟩, fun _ => step_of_script_nil,
    fun _ => step_of_not_admissible, HostEvent.txn_admissible_iff_pad, HostEvent.cutOff_not_admissible,
    HostEvent.reset_admissible⟩
  rintro ⟨t, ht⟩
  constructor
  · intro hnil
    simp [step_of_script_nil hnil] at ht
  · by_contra! hbad
    rcases step_of_not_admissible hbad with h | h <;> simp [h] at ht

end Sys2Proof.Machine
end

section
/-! The life of a result (R243): DONE keeps it, and a restart or reset discards it. -/

namespace Sys2Proof.Machine

/-! ### DONE keeps the result (R126, R150, R170) -/

/-- In DONE a step that is no restart and no reset writes at most SEQERR, CMDERR or CRC_RX. -/
theorem StepEffect.restarts_or_done_cases {s : State} {c : Block} (h : StepEffect s c) (hs : s.block.state = .done) :
    (s.NextResets ∨ ∃ i, s.NextRuns i ∧ isRestart i) ∨
    (c = s.block ∨ c = s.block.setSeqErr ∨ c = s.block.setCmdErr ∨ ∃ v, c = s.block.setCrcRx v) := by
  refine h.restarts_or_continues.imp id ?_
  rintro (rfl | rfl | rfl | ⟨v, rfl⟩ | ⟨xs, rfl⟩)
  · exact .inl rfl
  · exact .inr (.inl (Block.finish_of_not_computing (.inr hs)))
  · exact .inr (.inr (.inl rfl))
  · exact .inr (.inr (.inr ⟨v, rfl⟩))
  · by_cases hne : xs = []
    · exact .inl (by rw [hne, Block.absorbAll_nil])
    · exact .inr (.inl (Block.absorbAll_of_not_computing (.inr hs) hne))

theorem StepEffect.restarts_or_results_kept {s : State} {c : Block} (h : StepEffect s c)
    (hs : s.block.state = .done) :
    (s.NextResets ∨ ∃ i, s.NextRuns i ∧ isRestart i) ∨
    (c.state = .done ∧ c.result = s.block.result ∧ c.crcOut = s.block.crcOut ∧ c.count = s.block.count ∧
      c.tagWord = s.block.tagWord) := by
  refine (h.restarts_or_done_cases hs).imp id ?_
  rintro (rfl | rfl | rfl | ⟨v, rfl⟩) <;> exact ⟨hs, rfl, rfl, rfl, rfl⟩

/-! ### A restart discards it (R122, R123, R129) -/

theorem Block.start_tagWord (m : Mode) (b : Block) : (b.start m).tagWord = 0 := by
  rw [Block.tagWord, Block.start_tagb]
  decide

theorem Block.abort_tagWord (b : Block) : b.abort.tagWord = 0 := Block.reset_readReg .tag

theorem blockEffect_restart_results {i : Instr} (hi : isRestart i) (b : Block) :
    (blockEffect i b).result = .none ∧ (blockEffect i b).crcOut = 0 ∧ (blockEffect i b).count = 0 ∧
      (blockEffect i b).tagWord = 0 := by
  rcases hi with rfl | rfl | rfl
  · exact ⟨rfl, b.start_crcOut .gen, rfl, b.start_tagWord .gen⟩
  · exact ⟨rfl, b.start_crcOut .chk, rfl, b.start_tagWord .chk⟩
  · exact ⟨rfl, b.abort_crcOut, rfl, b.abort_tagWord⟩

/-- Settles O57. -/
theorem resultsKeptUntilRestart : Obligations.ResultsKeptUntilRestart := by
  constructor
  · rintro s t hs h ⟨hreset, hrestart⟩
    exact ((step_stepEffect h).restarts_or_results_kept hs).resolve_left (not_or_intro hreset hrestart)
  · rintro s t h (hr | ⟨i, hi, hrestart⟩)
    · rw [step_block_of_nextResets h hr]
      exact ⟨rfl, Block.reset_readReg .crcOut, rfl, Block.reset_readReg .tag⟩
    · rw [step_block_of_nextRuns h hi]
      exact blockEffect_restart_results hrestart _

end Sys2Proof.Machine
end
